-- ==== Sys2Proof/Word.lean ====
section
/-! DEFINITION. The word types of the block: the 64-bit command word, the 12-bit event code, and the
bit pattern of an IEEE 754 binary32 value. Nothing is computed here. -/

namespace Sys2Proof

/-- A command word `CW` of the control port (30_encoding.md R101). -/
abbrev CommandWord := BitVec 64

/-- An event with its sideband, the 12-bit pattern `{EVT, NOTE_EV, NOTE_NUM}` (30_encoding.md R107). -/
abbrev EventCode := BitVec 12

/-- An i32 (two's complement) or u32 register (00_scope.md R10). -/
abbrev Word32 := BitVec 32

/-- An f32: the bit pattern of an IEEE 754 binary32 value, sign in bit 31, exponent in bits 30..23,
fraction in bits 22..0 (00_scope.md R10, 20_memory.md R75). It is a type of its own, so that no
integer operation applies to it by accident; its arithmetic is in Machine/Float.lean. -/
structure F32 where
  bits : BitVec 32
deriving DecidableEq, Repr, Inhabited

end Sys2Proof
end

