-- ==== Sys2Proof/Syntax.lean ====
section
/-! DEFINITION. The instructions: one constructor per row of spec/opcode_table.json. -/

namespace Sys2Proof

/-- The 30 commands of the control port (30_encoding.md R106) and the 3 events of the render port
(R107). An operand is a field of the encoding as R104 types it: `idx` is `CW[55:48]`, an `F` payload
is an `F32`, an `I` payload a `Word32`, an `N8` payload a `BitVec 8`, a `B` payload a `Bool`, a `C4`
payload a `BitVec 4`, a `P3` payload a `Word32`. Operands outside their legal set are terms of this
type too (WellFormed.lean tells them apart): such a command executes as `NOP` (R103, R104). -/
inductive Instr where
  /-- `NOP`: opcode 0x00 and every unlisted opcode (R108, 44_render_system.md R301). -/
  | nop
  /-- `RESYNC` (40_oscillator.md R141). -/
  | resync
  /-- `OSC_SHAPE s, c` (40_oscillator.md R132). -/
  | oscShape (idx : BitVec 8) (code : BitVec 4)
  /-- `OSC_LEVEL s, v` (40_oscillator.md R133). -/
  | oscLevel (idx : BitVec 8) (v : F32)
  /-- `OSC_SHAPER s, v` (40_oscillator.md R134). -/
  | oscShaper (idx : BitVec 8) (v : F32)
  /-- `OSC_INTERVAL s, n` (40_oscillator.md R135). -/
  | oscInterval (idx : BitVec 8) (n : Word32)
  /-- `OSC_PARAM0 s, v` (40_oscillator.md R136). -/
  | oscParam0 (idx : BitVec 8) (v : F32)
  /-- `OSC_PARAM1 s, v` (40_oscillator.md R137). -/
  | oscParam1 (idx : BitVec 8) (v : F32)
  /-- `UNISON_EN b` (40_oscillator.md R138). -/
  | unisonEn (b : Bool)
  /-- `UNISON_SPREAD v` (40_oscillator.md R139). -/
  | unisonSpread (v : F32)
  /-- `CONST_LEVEL b` (40_oscillator.md R140). -/
  | constLevel (b : Bool)
  /-- `AMP_MODE b` (41_envelope_gate.md R191). -/
  | ampMode (b : Bool)
  /-- `OUTPUT_LEVEL v` (41_envelope_gate.md R192). -/
  | outputLevel (v : F32)
  /-- `ENV_ATTACK ms` (41_envelope_gate.md R193). -/
  | envAttack (ms : Word32)
  /-- `ENV_DECAY ms` (41_envelope_gate.md R194). -/
  | envDecay (ms : Word32)
  /-- `ENV_RELEASE ms` (41_envelope_gate.md R195). -/
  | envRelease (ms : Word32)
  /-- `ENV_SUSTAIN_LEN ms` (41_envelope_gate.md R196). -/
  | envSustainLen (ms : Word32)
  /-- `ENV_SUSTAIN_LVL v` (41_envelope_gate.md R197). -/
  | envSustainLvl (v : F32)
  /-- `GATE_DUTY v` (41_envelope_gate.md R198). -/
  | gateDuty (v : F32)
  /-- `GATE_NOTE_LEN ms` (41_envelope_gate.md R199). -/
  | gateNoteLen (ms : Word32)
  /-- `NOTE_ON n` (41_envelope_gate.md R200). -/
  | noteOn (n : BitVec 8)
  /-- `NOTE_OFF n` (41_envelope_gate.md R201). -/
  | noteOff (n : BitVec 8)
  /-- `FLT_CUTOFF v` (42_filter.md R241). -/
  | fltCutoff (v : F32)
  /-- `FLT_RESONANCE v` (42_filter.md R242). -/
  | fltResonance (v : F32)
  /-- `FLT_POLES p` (42_filter.md R243). -/
  | fltPoles (p : Word32)
  /-- `LFO_ENABLE i, b` (43_lfo.md R271). -/
  | lfoEnable (idx : BitVec 8) (b : Bool)
  /-- `LFO_FREQ i, v` (43_lfo.md R272). -/
  | lfoFreq (idx : BitVec 8) (v : F32)
  /-- `LFO_CENTER i, v` (43_lfo.md R273). -/
  | lfoCenter (idx : BitVec 8) (v : F32)
  /-- `LFO_WIDTH i, v` (43_lfo.md R274). -/
  | lfoWidth (idx : BitVec 8) (v : F32)
  /-- `LFO_SHAPE i, c` (43_lfo.md R275). -/
  | lfoShape (idx : BitVec 8) (code : BitVec 4)
  /-- The event `BUF_START` (44_render_system.md R303). -/
  | bufStart
  /-- The event `TICK` with its note sideband `NOTE_EV`, `NOTE_NUM` (44_render_system.md R305). -/
  | tick (noteEv : BitVec 2) (noteNum : BitVec 8)
  /-- The event `BUF_END` (44_render_system.md R306). -/
  | bufEnd
deriving DecidableEq, Repr

end Sys2Proof
end

