-- ==== Sys2Proof/Decode.lean ====
section
/-! DEFINITION. The decoder of command words and event codes (30_encoding.md R101 to R108), and the
encoder written from the same tables. Every 64-bit word decodes (R105); of the event codes only the
idle ones are no event (R107). -/

namespace Sys2Proof

/-- What arrives at a port: a command word, or an event code with its sideband. -/
inductive PortWord where
  | command (w : CommandWord)
  | event (e : EventCode)
deriving DecidableEq, Repr

/-- Why the decoder gives no instruction. -/
inductive Reject where
  /-- `EVT = 0b00`, none (idle): nothing happens (30_encoding.md R107). -/
  | idle
deriving DecidableEq, Repr

/-- `OPC = CW[63:56]` (30_encoding.md R101). -/
def opcField (w : CommandWord) : BitVec 8 := w.extractLsb' 56 8
/-- `IDX = CW[55:48]` (30_encoding.md R101). -/
def idxField (w : CommandWord) : BitVec 8 := w.extractLsb' 48 8
/-- `PAYLOAD = CW[31:0]` (30_encoding.md R101). -/
def payloadField (w : CommandWord) : Word32 := w.extractLsb' 0 32

/-- Payload type `F` (30_encoding.md R104). -/
def payF (p : Word32) : F32 := ⟨p⟩
/-- Payload type `B`: `PAYLOAD[0]` (30_encoding.md R104). -/
def payB (p : Word32) : Bool := p.getLsbD 0
/-- Payload type `N8`: `PAYLOAD[7:0]` (30_encoding.md R104). -/
def payN8 (p : Word32) : BitVec 8 := p.extractLsb' 0 8
/-- Payload type `C4`: `PAYLOAD[3:0]` (30_encoding.md R104). -/
def payC4 (p : Word32) : BitVec 4 := p.extractLsb' 0 4

/-- The command of an opcode (30_encoding.md R106) with its index and payload fields. An opcode that
the map does not list is `NOP` (R108). -/
def decodeFields (opc : BitVec 8) (idx : BitVec 8) (p : Word32) : Instr :=
  match opc.toNat with
  | 0x00 => .nop
  | 0x01 => .resync
  | 0x10 => .oscShape idx (payC4 p)
  | 0x11 => .oscLevel idx (payF p)
  | 0x12 => .oscShaper idx (payF p)
  | 0x13 => .oscInterval idx p
  | 0x14 => .oscParam0 idx (payF p)
  | 0x15 => .oscParam1 idx (payF p)
  | 0x16 => .unisonEn (payB p)
  | 0x17 => .unisonSpread (payF p)
  | 0x18 => .constLevel (payB p)
  | 0x20 => .ampMode (payB p)
  | 0x21 => .outputLevel (payF p)
  | 0x22 => .envAttack p
  | 0x23 => .envDecay p
  | 0x24 => .envRelease p
  | 0x25 => .envSustainLen p
  | 0x26 => .envSustainLvl (payF p)
  | 0x27 => .gateDuty (payF p)
  | 0x28 => .gateNoteLen p
  | 0x2A => .noteOn (payN8 p)
  | 0x2B => .noteOff (payN8 p)
  | 0x30 => .fltCutoff (payF p)
  | 0x31 => .fltResonance (payF p)
  | 0x32 => .fltPoles p
  | 0x40 => .lfoEnable idx (payB p)
  | 0x41 => .lfoFreq idx (payF p)
  | 0x42 => .lfoCenter idx (payF p)
  | 0x43 => .lfoWidth idx (payF p)
  | 0x44 => .lfoShape idx (payC4 p)
  | _ => .nop

/-- The decode of a command word: total, and a function of the word alone (30_encoding.md R105). `RSV`
is never read (R102). -/
def decodeCommand (w : CommandWord) : Instr :=
  decodeFields (opcField w) (idxField w) (payloadField w)

/-- `EVT`, bits 11:10 of an event code (30_encoding.md R107). -/
def evtField (e : EventCode) : BitVec 2 := e.extractLsb' 10 2
/-- `NOTE_EV`, bits 9:8 of an event code (30_encoding.md R107). -/
def noteEvField (e : EventCode) : BitVec 2 := e.extractLsb' 8 2
/-- `NOTE_NUM`, bits 7:0 of an event code (30_encoding.md R107). -/
def noteNumField (e : EventCode) : BitVec 8 := e.extractLsb' 0 8

/-- The decode of an event code; `none` is the idle code (30_encoding.md R107). -/
def decodeEvent (e : EventCode) : Option Instr :=
  match (evtField e).toNat with
  | 1 => some .bufStart
  | 2 => some (.tick (noteEvField e) (noteNumField e))
  | 3 => some .bufEnd
  | _ => none

/-- The decoder of both ports. -/
def decode : PortWord → Except Reject Instr
  | .command w => .ok (decodeCommand w)
  | .event e =>
    match decodeEvent e with
    | some i => .ok i
    | none => .error .idle

/-- A command word from its fields, `RSV` zero (30_encoding.md R101, R111). -/
def commandWord (opc idx : BitVec 8) (payload : Word32) : CommandWord :=
  opc ++ idx ++ (0 : BitVec 16) ++ payload

/-- A bit as a payload (type `B`), the unread bits zero. -/
def bitPayload (b : Bool) : Word32 := (BitVec.ofBool b).setWidth 32

/-- An event code from its fields (30_encoding.md R107). -/
def eventWord (evt noteEv : BitVec 2) (noteNum : BitVec 8) : EventCode := evt ++ noteEv ++ noteNum

/-- The encoder: the word of the opcode map (30_encoding.md R106) or the event code (R107), every
unread field zero (R111). -/
def encode : Instr → PortWord
  | .nop => .command (commandWord 0x00 0 0)
  | .resync => .command (commandWord 0x01 0 0)
  | .oscShape idx c => .command (commandWord 0x10 idx (c.setWidth 32))
  | .oscLevel idx v => .command (commandWord 0x11 idx v.bits)
  | .oscShaper idx v => .command (commandWord 0x12 idx v.bits)
  | .oscInterval idx n => .command (commandWord 0x13 idx n)
  | .oscParam0 idx v => .command (commandWord 0x14 idx v.bits)
  | .oscParam1 idx v => .command (commandWord 0x15 idx v.bits)
  | .unisonEn b => .command (commandWord 0x16 0 (bitPayload b))
  | .unisonSpread v => .command (commandWord 0x17 0 v.bits)
  | .constLevel b => .command (commandWord 0x18 0 (bitPayload b))
  | .ampMode b => .command (commandWord 0x20 0 (bitPayload b))
  | .outputLevel v => .command (commandWord 0x21 0 v.bits)
  | .envAttack ms => .command (commandWord 0x22 0 ms)
  | .envDecay ms => .command (commandWord 0x23 0 ms)
  | .envRelease ms => .command (commandWord 0x24 0 ms)
  | .envSustainLen ms => .command (commandWord 0x25 0 ms)
  | .envSustainLvl v => .command (commandWord 0x26 0 v.bits)
  | .gateDuty v => .command (commandWord 0x27 0 v.bits)
  | .gateNoteLen ms => .command (commandWord 0x28 0 ms)
  | .noteOn n => .command (commandWord 0x2A 0 (n.setWidth 32))
  | .noteOff n => .command (commandWord 0x2B 0 (n.setWidth 32))
  | .fltCutoff v => .command (commandWord 0x30 0 v.bits)
  | .fltResonance v => .command (commandWord 0x31 0 v.bits)
  | .fltPoles p => .command (commandWord 0x32 0 p)
  | .lfoEnable idx b => .command (commandWord 0x40 idx (bitPayload b))
  | .lfoFreq idx v => .command (commandWord 0x41 idx v.bits)
  | .lfoCenter idx v => .command (commandWord 0x42 idx v.bits)
  | .lfoWidth idx v => .command (commandWord 0x43 idx v.bits)
  | .lfoShape idx c => .command (commandWord 0x44 idx (c.setWidth 32))
  | .bufStart => .event (eventWord 1 0 0)
  | .tick e n => .event (eventWord 2 e n)
  | .bufEnd => .event (eventWord 3 0 0)

/-- What stands at a port for an instruction of spec/opcode_table.json whose bits are `w`, bit 0 the
least significant: a row of at most 16 bits is an event (its 12 bits given as two whole bytes), any
other a command. Neither port has a byte order (20_memory.md R75): the word is presented as one value. -/
def tablePortWord (nbits w : Nat) : PortWord :=
  if nbits ≤ 16 then .event (BitVec.ofNat 12 w) else .command (BitVec.ofNat 64 w)

/-- The instruction the decoder reads from an instruction of the table whose bits are `w`. -/
def decodeTableWord (nbits w : Nat) : Option Instr :=
  match decode (tablePortWord nbits w) with
  | .ok i => some i
  | .error _ => none

end Sys2Proof
end

