-- ==== Sys2Proof/Config.lean ====
section
/-! DEFINITION. What an implementation fixes (the parameters of 00_scope.md R8) and the free values
(opaque constants without a body: nothing can be proved of their values). The default parameters and
the note table are in Machine/Params.lean, the use of the free values in Machine/Numerics.lean. -/

namespace Sys2Proof

/-- An entry of `UNISON_SIGN`: -1, 0 or +1 (00_scope.md R8). -/
inductive Sign where
  | minus
  | zero
  | plus
deriving DecidableEq, Repr

/-- The parameters of the model (00_scope.md R8, R49). A machine carries them in the field `cfg` of its
state, where no step changes them, so that every statement about all states is a statement about all
parameters (notes/assumptions/1.md). -/
structure Config where
  /-- `SAMPLE_RATE`, finite and above 0. -/
  sampleRate : F32
  /-- `MIN_ENV_LEVEL`, dBFS, in [-70, -60]. -/
  minEnvLevel : F32
  /-- `NF_BYPASS`, at most 1.0. -/
  nfBypass : F32
  /-- `UNISON_SIGN[0..3]`; entries 0 and 3 non-zero, entry 1 zero. -/
  unisonSign : Vector Sign 4
  /-- `SS_DETUNE`. -/
  ssDetune : F32
  /-- `CMD_FIFO_DEPTH`; `none` is unbounded. -/
  fifoDepth : Option Nat
  /-- `NOTE_FREQ[0..127]`, the contents of the ROM (20_memory.md R70, R71). -/
  noteFreq : List F32
deriving DecidableEq, Repr

/-- `NUM.sin2pi` before R15's bounds are put on it (Machine/Numerics.lean): any function. -/
opaque Config.sin2piRaw : F32 → F32

/-- `NUM.db2lin` before R15's laws are put on it (Machine/Numerics.lean): any function. -/
opaque Config.db2linRaw : F32 → F32

/-- The n-th noise draw before it is held to [-1, 1] (40_oscillator.md R158): any sequence. -/
opaque Config.noiseRaw : Nat → F32

/-- The sign (top bit) and the 22 payload bits of the NaN of the n-th draw (00_scope.md R12). -/
opaque Config.nanBits : Nat → BitVec 23

/-- Which operand `min` and `max` return when the two compare equal and differ in their bits, which
only the two zeros do; `true` is the first. 00_scope.md R12 does not say (notes/assumptions/10.md). -/
opaque Config.zeroTie : F32 → F32 → Bool

end Sys2Proof
end

