-- ==== Sys2Proof/Machine/Float.lean ====
section
/-! DEFINITION. IEEE 754 binary32 arithmetic on bit patterns (00_scope.md R12), the conversions of
R13 and `wrap` of R16. Every operation computes exactly, in units of 2^-149 (the least subnormal),
and rounds once, to nearest with ties to even. -/

namespace Sys2Proof.F32

/-- `+0.0`. -/
def zero : F32 := ⟨0⟩
def one : F32 := ⟨0x3F800000⟩
def negOne : F32 := ⟨0xBF800000⟩
def two : F32 := ⟨0x40000000⟩
def three : F32 := ⟨0x40400000⟩
def four : F32 := ⟨0x40800000⟩
def seven : F32 := ⟨0x40E00000⟩
def quarter : F32 := ⟨0x3E800000⟩
def half : F32 := ⟨0x3F000000⟩
def threeQuarters : F32 := ⟨0x3F400000⟩
def thousand : F32 := ⟨0x447A0000⟩
/-- The binary32 nearest 0.9: `SHAPER_MAX` and `DUTY_MAX` (40_oscillator.md R134, 41_envelope_gate.md R198). -/
def pointNine : F32 := ⟨0x3F666666⟩
/-- `PI_F32` (00_scope.md R15). -/
def pi : F32 := ⟨0x40490FDB⟩

/-- The pattern of an infinity without its sign; it is also the least pattern that is not finite. -/
def infMag : Nat := 0x7F800000

/-- One (2^0) in units of 2^-149. -/
def oneUnits : Nat := 2 ^ 149

def sign (a : F32) : Bool := a.bits.msb
def expo (a : F32) : Nat := a.bits.toNat / 2 ^ 23 % 256
def frac (a : F32) : Nat := a.bits.toNat % 2 ^ 23

def isNaN (a : F32) : Bool := expo a == 255 && frac a != 0
def isInf (a : F32) : Bool := expo a == 255 && frac a == 0
/-- `finite(v)` of 00_scope.md R13. -/
def isFinite (a : F32) : Bool := expo a != 255
def isZero (a : F32) : Bool := expo a == 0 && frac a == 0

/-- The magnitude in units of 2^-149. For an infinity it is 2^277, above every finite magnitude. -/
def mag (a : F32) : Nat :=
  if expo a = 0 then frac a else (frac a + 2 ^ 23) * 2 ^ (expo a - 1)

/-- The signed value in units of 2^-149, for what is not a NaN. -/
def units (a : F32) : Int := if sign a then -(mag a : Int) else (mag a : Int)

/-- The pattern with the given sign and the given pattern of the magnitude. -/
def pack (neg : Bool) (m : Nat) : F32 :=
  ⟨BitVec.ofNat 32 (if neg then m + 2 ^ 31 else m)⟩

/-- The NaN that arithmetic hands on inside one rule. Its sign and payload are never seen: every value
a rule stores or exports goes through `drawNaN` (Machine/Numerics.lean), which frees them. -/
def defaultNaN : F32 := ⟨0x7FC00000⟩

def inf (neg : Bool) : F32 := pack neg infMag

/-- The binary32 pattern (without sign) nearest to `num/den` units of 2^-149, ties to even; the
pattern of the infinity where the rounded value is beyond the largest finite one (00_scope.md R12).
`k` is the number of low bits that do not fit in 24: the pattern of a value with quotient `q < 2^24`
and `k` bits dropped is `q + k * 2^23`, subnormals and a carry out of the fraction included. -/
def roundMag (num den : Nat) : Nat :=
  let k := (num / den).log2 + 1 - 24
  let d := den * 2 ^ k
  let q := num / d
  let r := num % d
  let q' := if d < 2 * r ∨ (2 * r = d ∧ q % 2 = 1) then q + 1 else q
  min (q' + k * 2 ^ 23) infMag

/-- `-a`: the sign bit flipped. -/
def neg (a : F32) : F32 := pack (!sign a) (a.bits.toNat % 2 ^ 31)

/-- `|a|`: the sign bit cleared (00_scope.md R12). -/
def abs (a : F32) : F32 := pack false (a.bits.toNat % 2 ^ 31)

/-- `a + b` (00_scope.md R12). An exact zero sum is `-0.0` only when both operands are negative. -/
def add (a b : F32) : F32 :=
  if isNaN a || isNaN b then defaultNaN
  else if isInf a then (if isInf b && sign a != sign b then defaultNaN else a)
  else if isInf b then b
  else
    let n := units a + units b
    if n = 0 then pack (sign a && sign b) 0
    else pack (decide (n < 0)) (roundMag n.natAbs 1)

/-- `a - b` (00_scope.md R12). -/
def sub (a b : F32) : F32 := add a (neg b)

/-- `a × b` (00_scope.md R12). -/
def mul (a b : F32) : F32 :=
  let s := sign a != sign b
  if isNaN a || isNaN b then defaultNaN
  else if isInf a || isInf b then (if isZero a || isZero b then defaultNaN else inf s)
  else pack s (roundMag (mag a * mag b) oneUnits)

/-- `a / b` (00_scope.md R12): `x / 0` is an infinity, `0 / 0` and `inf / inf` are NaN. -/
def div (a b : F32) : F32 :=
  let s := sign a != sign b
  if isNaN a || isNaN b then defaultNaN
  else if isInf a then (if isInf b then defaultNaN else inf s)
  else if isInf b then pack s 0
  else if isZero b then (if isZero a then defaultNaN else inf s)
  else pack s (roundMag (mag a * oneUnits) (mag b))

/-- `a < b`; false with a NaN (00_scope.md R12). -/
def lt (a b : F32) : Bool := !isNaN a && !isNaN b && decide (units a < units b)

/-- `a ≤ b`; false with a NaN (00_scope.md R12). -/
def le (a b : F32) : Bool := !isNaN a && !isNaN b && decide (units a ≤ units b)

/-- `a == b`; false with a NaN, true of the two zeros (00_scope.md R12). -/
def feq (a b : F32) : Bool := !isNaN a && !isNaN b && decide (units a = units b)

/-- `min(a, b)` on values that are not NaN (00_scope.md R12); a tie of unlike zeros is free. -/
def min (a b : F32) : F32 :=
  if lt a b then a else if lt b a then b else if a = b then a
  else if Config.zeroTie a b then a else b

/-- `max(a, b)` on values that are not NaN (00_scope.md R12); a tie of unlike zeros is free. -/
def max (a b : F32) : F32 :=
  if lt a b then b else if lt b a then a else if a = b then a
  else if Config.zeroTie a b then a else b

/-- `clamp(v, lo, hi) = max(lo, min(v, hi))` (00_scope.md R12). -/
def clamp (v lo hi : F32) : F32 := max lo (min v hi)

/-- The f32 of an integer that an f32 can hold, and the nearest one (ties to even) for any other:
`f32_of_i32` and `f32_of_u32` of 00_scope.md R13 and 41_envelope_gate.md R213. -/
def ofInt (n : Int) : F32 := pack (decide (n < 0)) (roundMag (n.natAbs * oneUnits) 1)

/-- `f32_of_i32` (00_scope.md R13). -/
def ofI32 (n : Word32) : F32 := ofInt n.toInt

/-- `f32_of_u32` (41_envelope_gate.md R213). -/
def ofU32 (n : Word32) : F32 := ofInt n.toNat

/-- `floor(a)`: the largest integral f32 not above `a`, exact (00_scope.md R12). -/
def floor (a : F32) : F32 :=
  if !isFinite a || isZero a then a else ofInt (units a / (oneUnits : Int))

/-- `round_u32` (00_scope.md R13): nearest, ties away from zero, saturating, 0 for a NaN or `v ≤ 0`. -/
def roundU32 (v : F32) : Word32 :=
  if isNaN v || le v zero then 0
  else if decide ((4294967295 * oneUnits : Int) ≤ units v) then BitVec.allOnes 32
  else BitVec.ofNat 32 ((2 * mag v + oneUnits) / (2 * oneUnits))

/-- `wrap` (00_scope.md R16): brings a phase back into [0, 1). -/
def wrap (v : F32) : F32 :=
  if !isFinite v then zero
  else
    let r := sub v (floor v)
    if le one r || lt r zero then zero else r

end Sys2Proof.F32
end

