-- ==== Sys2Proof/Machine/State.lean ====
section
/-! DEFINITION. The state of the block (10_state.md), the model's own fields beside it, the reasons a
step can stop, and the state after reset (R50). -/

namespace Sys2Proof.Machine

/-- A wave shape; the codes 0..9 of 30_encoding.md R110 in order. -/
inductive Shape where
  | sine
  | square
  | saw
  | ramp
  | triangle
  | noise
  | pulse
  | superSaw
  | fm
  | am
deriving DecidableEq, Repr

/-- `FLT_POLES`: 1, 2 or 3; no other value is ever stored (10_state.md R29). -/
inductive Poles where
  | one
  | two
  | three
deriving DecidableEq, Repr

/-- `AMP_MODE`: 0 Gate, 1 Envelope (10_state.md R31). -/
inductive AmpMode where
  | gate
  | envelope
deriving DecidableEq, Repr

/-- `NOTE_STATE`, values 0..3 in order (10_state.md R34). -/
inductive NoteState where
  | rest
  | noteOn
  | noteHold
  | noteOff
deriving DecidableEq, Repr

/-- `ENV_STAGE`, values 0..3 in order (10_state.md R40). -/
inductive EnvStage where
  | attack
  | decay
  | sustain
  | release
deriving DecidableEq, Repr

/-- `ENV_EXT`: 0 Stopped, 1 Playing; the level `Playing` carries is `ENV_LEVEL` (10_state.md R40). -/
inductive EnvExt where
  | stopped
  | playing
deriving DecidableEq, Repr

/-- `GATE_STATE`: 0 On, 1 Off, 2 End; 3 is never stored (10_state.md R42). -/
inductive GateState where
  | on
  | off
  | done
deriving DecidableEq, Repr

/-- The amplitude output of a frame (00_scope.md R10). -/
inductive AmpOut where
  | stopped
  | playing (gain : F32)
deriving DecidableEq, Repr

/-- One oscillator slot (10_state.md R23, R24). -/
structure Slot where
  shape : Shape
  level : F32
  shaper : F32
  interval : Word32
  p0 : F32
  p1 : F32
  ph : Vector F32 7
deriving DecidableEq, Repr

/-- One LFO (10_state.md R27, R28). -/
structure Lfo where
  en : Bool
  freq : F32
  center : F32
  width : F32
  shape : Shape
  ph : Vector F32 7
deriving DecidableEq, Repr

/-- The output record of an accepted `TICK` (44_render_system.md R311). -/
structure OutRecord where
  sig : F32
  amp : AmpOut
  noteAdvance : Bool
  lfoPan : Option F32
  lfoTrem : Option F32
  lfoPhaser : Option F32
  lfoFlt : Option F32
  oscMod : Vector (Option F32) 4
  mix : F32
  y : Vector F32 4
deriving DecidableEq, Repr

/-- One move of an agent. An execution is a single sequence of indivisible moves (20_memory.md R82);
which comes next is free (R81, 60_exceptions.md R351) and is read from the list `agenda` of the state. -/
inductive Turn where
  /-- The control port takes the word presented to it, if `CMDQ` is not full (20_memory.md R77). -/
  | accept
  /-- The executor takes the head of `CMDQ`, if the block is in a gap (44_render_system.md R302). -/
  | execute
  /-- The host puts an event code on the render port (44_render_system.md R300, 30_encoding.md R107). -/
  | event (e : EventCode)
  /-- The reset input (70_reset_and_hazards.md R380). -/
  | reset
deriving DecidableEq, Repr

/-- Why a step stops with a fault: never. The block raises no exception (60_exceptions.md R340), so
this type has no constructor; safe, since it excludes only what the spec excludes. -/
inductive Fault
deriving DecidableEq, Repr

/-- Why a step refuses an instruction. -/
inductive Refusal where
  /-- Raised by an arm of `exec` whose instruction has no meaning yet; no arm is left that raises it.
  Safe: the model stops where the hardware goes on. -/
  | notModelled (mnemonic : String)
deriving DecidableEq, Repr

/-- The whole state. The first four groups are the spec's (10_state.md R23 to R45); the last group is
the model's own: the parameters of the machine, what waits outside its ports, the count of free draws
taken, and the records it has answered. -/
structure State where
  -- oscillator bank (R23 to R25)
  slots : Vector Slot 4
  unisonEn : Bool
  unisonSpread : F32
  constLevel : Bool
  -- LFO bank (R26 to R28) and filter (R29, R30)
  lfos : Vector Lfo 8
  fltCutoff : F32
  fltQ : F32
  fltPoles : Poles
  buf0 : Vector F32 3
  buf1 : Vector F32 3
  -- amplitude unit (R31, R33, R34, R40, R42)
  ampMode : AmpMode
  outputLevel : F32
  attackMs : Word32
  decayMs : Word32
  releaseMs : Word32
  sustainMs : Word32
  sustainDb : F32
  gateDuty : F32
  gateLenMs : Word32
  curNote : BitVec 8
  noteState : NoteState
  envLevel : F32
  envStage : EnvStage
  envExt : EnvExt
  susCnt : Word32
  gateState : GateState
  gateOnCnt : Word32
  gateOffCnt : Word32
  -- front end (R44, R45)
  inBuffer : Bool
  cmdq : List CommandWord
  -- the model's own: parameters (00_scope.md R8); words presented at the control port and the moves
  -- still to come; draws taken; records answered, oldest first
  cfg : Config
  ctrlIn : List CommandWord
  agenda : List Turn
  draws : Nat
  out : List OutRecord
deriving DecidableEq, Repr

/-- Seven phases of 0.0. -/
def zeroPhases : Vector F32 7 := Vector.replicate 7 F32.zero

/-- A slot at reset (10_state.md R50). -/
def Slot.reset : Slot where
  shape := .sine
  level := F32.zero
  shaper := F32.zero
  interval := 0
  p0 := F32.half
  p1 := F32.zero
  ph := zeroPhases

/-- An LFO at reset (10_state.md R50). -/
def Lfo.reset : Lfo where
  en := false
  freq := F32.one
  center := F32.one
  width := F32.zero
  shape := .sine
  ph := zeroPhases

/-- Reset of a block with parameters `c` (10_state.md R50): every piece of the spec's state at its
reset value, and nothing presented, nothing to come, nothing drawn, nothing answered. -/
def State.resetOf (c : Config) : State where
  slots := Vector.replicate 4 Slot.reset
  unisonEn := false
  unisonSpread := F32.zero
  constLevel := false
  lfos := Vector.replicate 8 Lfo.reset
  fltCutoff := ⟨0x469C4000⟩
  fltQ := F32.zero
  fltPoles := .one
  buf0 := Vector.replicate 3 F32.zero
  buf1 := Vector.replicate 3 F32.zero
  ampMode := .envelope
  outputLevel := F32.zero
  attackMs := 0
  decayMs := 0
  releaseMs := 0
  sustainMs := 0
  sustainDb := F32.zero
  gateDuty := F32.half
  gateLenMs := 0
  curNote := 128
  noteState := .rest
  envLevel := c.minEnvLevel
  envStage := .attack
  envExt := .stopped
  susCnt := 0
  gateState := .on
  gateOnCnt := 0
  gateOffCnt := 0
  inBuffer := false
  cmdq := []
  cfg := c
  ctrlIn := []
  agenda := []
  draws := 0
  out := []

/-- The machine right after reset (70_reset_and_hazards.md R380, 10_state.md R50), with the default
parameters of 00_scope.md R8. -/
def State.reset : State := State.resetOf Config.default

end Sys2Proof.Machine
end

