-- ==== Sys2Proof/Machine/Flags.lean ====
section
/-! DEFINITION. Status. The block has no condition codes and no flag that an instruction tests
(10_state.md R47, 60_exceptions.md R342): no instruction computes one. Its whole status is visible in
the output record of a frame, and is read from there by the functions below. -/

namespace Sys2Proof.Machine

/-- The variant of the amplitude output: `Playing` (10_state.md R47). -/
def OutRecord.isPlaying (r : OutRecord) : Bool :=
  match r.amp with
  | .playing _ => true
  | .stopped => false

/-- The gain a consumer uses that needs a number: 0.0 for `Stopped` (41_envelope_gate.md R209). -/
def OutRecord.gain (r : OutRecord) : F32 :=
  match r.amp with
  | .playing g => g
  | .stopped => F32.zero

/-- The plain product a consumer outside the block may form: `SIG × g` for `Playing(g)`, 0.0 for
`Stopped` (44_render_system.md R313). The block itself does not form it. -/
def OutRecord.product (r : OutRecord) : F32 :=
  match r.amp with
  | .playing g => r.sig.mul g
  | .stopped => F32.zero

end Sys2Proof.Machine
end

