-- ==== Sys2Proof/Machine/Numerics.lean ====
section
/-! DEFINITION. The numerics record `NUM` held to the laws of 00_scope.md R15, and the two kinds of
draw: noise samples (40_oscillator.md R158) and the bits of a NaN (00_scope.md R12). -/

namespace Sys2Proof

/-- `p` lies in [0, 1), where R15 defines `NUM.sin2pi`. -/
def inUnit (p : F32) : Bool := F32.le F32.zero p && F32.lt p F32.one

/-- `NUM.sin2pi` (00_scope.md R15): the four exact points; elsewhere in [0, 1) any value with
`|w| ≤ 1`; outside [0, 1), where R15 does not define it, any value. -/
def sin2pi (p : F32) : F32 :=
  if F32.feq p F32.zero then F32.zero
  else if F32.feq p F32.quarter then F32.one
  else if F32.feq p F32.half then F32.zero
  else if F32.feq p F32.threeQuarters then F32.negOne
  else if inUnit p && !F32.le (Config.sin2piRaw p).abs F32.one then F32.zero
  else Config.sin2piRaw p

/-- The laws R15 puts on `NUM.db2lin`, for a function on bit patterns: on finite arguments it is
positive and non-decreasing, and at the two zeros it is 1. -/
abbrev Db2linLawful (f : F32 → F32) : Prop :=
  ∀ x y : BitVec 32, F32.isFinite ⟨x⟩ = true → F32.isFinite ⟨y⟩ = true →
    F32.lt F32.zero (f ⟨x⟩) = true ∧ (F32.le ⟨x⟩ ⟨y⟩ = true → F32.le (f ⟨x⟩) (f ⟨y⟩) = true) ∧
      (F32.isZero ⟨x⟩ = true → f ⟨x⟩ = F32.one)

/-- `NUM.db2lin` (00_scope.md R15): 1 at 0; any function that obeys the laws (where the free function
does not obey them, the constant 1, which does). -/
def db2lin (d : F32) : F32 :=
  if F32.isZero d then F32.one
  else if Db2linLawful Config.db2linRaw then Config.db2linRaw d
  else F32.one

/-- The n-th noise draw: any value in [-1, 1] (40_oscillator.md R158). -/
def noiseDraw (n : Nat) : F32 :=
  if F32.le F32.negOne (Config.noiseRaw n) && F32.le (Config.noiseRaw n) F32.one then Config.noiseRaw n
  else F32.zero

/-- A quiet NaN whose sign and payload are the n-th draw (00_scope.md R12). -/
def nanDraw (n : Nat) : F32 :=
  ⟨(Config.nanBits n).extractLsb' 22 1 ++ (0x1FF#9 : BitVec 9) ++ (Config.nanBits n).extractLsb' 0 22⟩

/-- A value and the index of the next draw. -/
structure Drawn (α : Type) where
  val : α
  draws : Nat
deriving DecidableEq, Repr

/-- The value a rule stores or exports: a NaN that arithmetic produced gets free sign and payload
(00_scope.md R12); any other value stands. -/
def drawNaN (v : F32) (n : Nat) : Drawn F32 :=
  if v.isNaN then ⟨nanDraw n, n + 1⟩ else ⟨v, n⟩

end Sys2Proof
end

