-- ==== Sys2Proof/WellFormed.lean ====
section
/-! DEFINITION. Which instructions carry legal operands. The others are commands too; they execute as
`NOP` (30_encoding.md R103, R104, 10_state.md R46), or, for a `TICK`, its reserved `NOTE_EV` value is
treated as no note event (30_encoding.md R107). -/

namespace Sys2Proof

/-- `IDX` names a slot: 0..3 (30_encoding.md R103). -/
def legalSlot (idx : BitVec 8) : Bool := decide (idx.toNat < 4)

/-- `IDX` names an LFO: 0..7 (30_encoding.md R103). -/
def legalLfo (idx : BitVec 8) : Bool := decide (idx.toNat < 8)

/-- A pole count is 1, 2 or 3 (30_encoding.md R104, type `P3`). -/
def legalPoles (p : Word32) : Bool := p == 1 || p == 2 || p == 3

/-- `NOTE_EV` is not the reserved value 0b11 (30_encoding.md R107). -/
def legalNoteEv (e : BitVec 2) : Bool := e != 3

/-- Every operand of the instruction is in its legal set: index range and finite payload
(40_oscillator.md R130, 10_state.md R46), pole count, sideband. -/
def Instr.wf : Instr → Bool
  | .oscShape idx _ => legalSlot idx
  | .oscLevel idx v => legalSlot idx && v.isFinite
  | .oscShaper idx v => legalSlot idx && v.isFinite
  | .oscInterval idx _ => legalSlot idx
  | .oscParam0 idx v => legalSlot idx && v.isFinite
  | .oscParam1 idx v => legalSlot idx && v.isFinite
  | .unisonSpread v => v.isFinite
  | .outputLevel v => v.isFinite
  | .envSustainLvl v => v.isFinite
  | .gateDuty v => v.isFinite
  | .fltCutoff v => v.isFinite
  | .fltResonance v => v.isFinite
  | .fltPoles p => legalPoles p
  | .lfoEnable idx _ => legalLfo idx
  | .lfoFreq idx v => legalLfo idx && v.isFinite
  | .lfoCenter idx v => legalLfo idx && v.isFinite
  | .lfoWidth idx v => legalLfo idx && v.isFinite
  | .lfoShape idx _ => legalLfo idx
  | .tick e _ => legalNoteEv e
  | .nop => true
  | .resync => true
  | .unisonEn _ => true
  | .constLevel _ => true
  | .ampMode _ => true
  | .envAttack _ => true
  | .envDecay _ => true
  | .envRelease _ => true
  | .envSustainLen _ => true
  | .gateNoteLen _ => true
  | .noteOn _ => true
  | .noteOff _ => true
  | .bufStart => true
  | .bufEnd => true

/-- The instruction is a command of the control port; the others are events of the render port
(30_encoding.md R100). -/
def Instr.isCommand : Instr → Bool
  | .bufStart => false
  | .tick _ _ => false
  | .bufEnd => false
  | .nop => true
  | .resync => true
  | .oscShape _ _ => true
  | .oscLevel _ _ => true
  | .oscShaper _ _ => true
  | .oscInterval _ _ => true
  | .oscParam0 _ _ => true
  | .oscParam1 _ _ => true
  | .unisonEn _ => true
  | .unisonSpread _ => true
  | .constLevel _ => true
  | .ampMode _ => true
  | .outputLevel _ => true
  | .envAttack _ => true
  | .envDecay _ => true
  | .envRelease _ => true
  | .envSustainLen _ => true
  | .envSustainLvl _ => true
  | .gateDuty _ => true
  | .gateNoteLen _ => true
  | .noteOn _ => true
  | .noteOff _ => true
  | .fltCutoff _ => true
  | .fltResonance _ => true
  | .fltPoles _ => true
  | .lfoEnable _ _ => true
  | .lfoFreq _ _ => true
  | .lfoCenter _ _ => true
  | .lfoWidth _ _ => true
  | .lfoShape _ _ => true

end Sys2Proof
end

