-- ==== Sys2Proof/Machine/Operands.lean ====
section
/-! DEFINITION. How a command's operands are read and legalised: index decode (30_encoding.md R103),
shape codes and names (R110), pole counts (R104), and the per-register legalisation of 10_state.md
R23 to R31. -/

namespace Sys2Proof.Machine

/-- The slot that `IDX` names, if it is in 0..3 (30_encoding.md R103). -/
def slotOf (idx : BitVec 8) : Option (Fin 4) := if h : idx.toNat < 4 then some ⟨idx.toNat, h⟩ else none

/-- The LFO that `IDX` names, if it is in 0..7 (30_encoding.md R103). -/
def lfoOf (idx : BitVec 8) : Option (Fin 8) := if h : idx.toNat < 8 then some ⟨idx.toNat, h⟩ else none

/-- The shape of a 4-bit code; 10..15 are Sine (30_encoding.md R110). -/
def shapeOf (code : BitVec 4) : Shape :=
  match code.toNat with
  | 0 => .sine
  | 1 => .square
  | 2 => .saw
  | 3 => .ramp
  | 4 => .triangle
  | 5 => .noise
  | 6 => .pulse
  | 7 => .superSaw
  | 8 => .fm
  | 9 => .am
  | _ => .sine

/-- The code of a shape (30_encoding.md R110). -/
def codeOf : Shape → BitVec 4
  | .sine => 0
  | .square => 1
  | .saw => 2
  | .ramp => 3
  | .triangle => 4
  | .noise => 5
  | .pulse => 6
  | .superSaw => 7
  | .fm => 8
  | .am => 9

/-- The pole count of a `P3` payload, if it is 1, 2 or 3 (30_encoding.md R104, 42_filter.md R243). -/
def polesOf (p : Word32) : Option Poles :=
  match p.toNat with
  | 1 => some .one
  | 2 => some .two
  | 3 => some .three
  | _ => none

/-- The mode of a `B` payload: 0 Gate, 1 Envelope (41_envelope_gate.md R191). -/
def ampModeOf (b : Bool) : AmpMode := if b then .envelope else .gate

/-- The legalisation of a register that is at least 0: a negative value is stored as 0.0
(10_state.md R23, R27, R29, R31; `-0.0` is not negative, 40_oscillator.md R133). -/
def floorZero (v : F32) : F32 := if v.lt F32.zero then F32.zero else v

/-- The legalisation of `SHAPER` and `GATE_DUTY`: into [0.0, 0.9] (40_oscillator.md R134, 41_envelope_gate.md R198). -/
def clampNine (v : F32) : F32 := v.clamp F32.zero F32.pointNine

/-- The legalisation of `FLT_Q`: into [0.0, 1.0] (42_filter.md R242). -/
def clampOne (v : F32) : F32 := v.clamp F32.zero F32.one

/-- The legalisation of `OUTPUT_LEVEL`: at least `MIN_ENV_LEVEL` (41_envelope_gate.md R192). -/
def floorMinEnv (c : Config) (v : F32) : F32 := if v.lt c.minEnvLevel then c.minEnvLevel else v

/-- The legalisation of a duration: a negative i32 is stored as 0 (10_state.md R31). -/
def floorMs (ms : Word32) : Word32 := if ms.toInt < 0 then 0 else ms

/-- `n' = min(n, 128)`: note numbers 129..255 are the rest sentinel (41_envelope_gate.md R205). -/
def noteOf (n : BitVec 8) : BitVec 8 := if n.toNat < 128 then n else 128

end Sys2Proof.Machine
end

