-- ==== Sys2Proof/Machine/Ops.lean ====
section
/-! DEFINITION. The shared operations: named writes of the state, the fallback "executes as NOP", the
common steps of indexed commands, note events, reset, and the moves of the two ports. There is no
exception to take and none to return from (60_exceptions.md R340, R352, R353). -/

namespace Sys2Proof.Machine

/-- Replace slot `i`. -/
def State.setSlot (s : State) (i : Fin 4) (sl : Slot) : State := { s with slots := s.slots.set i sl }

/-- Replace LFO `i`. -/
def State.setLfo (s : State) (i : Fin 8) (l : Lfo) : State := { s with lfos := s.lfos.set i l }

/-- Set the index of the next free draw. -/
def State.setDraws (s : State) (n : Nat) : State := { s with draws := n }

/-- Write one stage of the filter's integrators (10_state.md R30). -/
def State.setStage (s : State) (k : Fin 3) (b0 b1 : F32) : State :=
  { s with buf0 := s.buf0.set k b0, buf1 := s.buf1.set k b1 }

/-- Answer a frame with its record (44_render_system.md R311). -/
def State.emit (s : State) (r : OutRecord) : State := { s with out := s.out ++ [r] }

/-- The fallback of 60_exceptions.md R340, "executes as `NOP`": no state changes. -/
def asNop (s : State) : State := s

/-- The common steps of an `OSC_*` command without an f32 payload (40_oscillator.md R130): `NOP` for an
index out of range, else the given update of the slot. -/
def onSlot (idx : BitVec 8) (f : Slot → Slot) (s : State) : State :=
  match slotOf idx with
  | none => asNop s
  | some i => s.setSlot i (f s.slots[i])

/-- The common steps of an `LFO_*` command without an f32 payload (30_encoding.md R103). -/
def onLfo (idx : BitVec 8) (f : Lfo → Lfo) (s : State) : State :=
  match lfoOf idx with
  | none => asNop s
  | some i => s.setLfo i (f s.lfos[i])

/-- A command whose f32 payload is not finite executes as `NOP` (10_state.md R46); else it does `g`. -/
def whenFinite (v : F32) (g : State → State) (s : State) : State :=
  if v.isFinite then g s else asNop s

/-- `NoteOn(n)` (41_envelope_gate.md R205). -/
def noteOnOp (n : BitVec 8) (s : State) : State :=
  { s with curNote := noteOf n, noteState := if (noteOf n).toNat < 128 then .noteOn else .rest }

/-- `NoteOff(n)` (41_envelope_gate.md R206). -/
def noteOffOp (n : BitVec 8) (s : State) : State :=
  if n = s.curNote ∧ (s.noteState = .noteOn ∨ s.noteState = .noteHold) then
    { s with noteState := .noteOff }
  else s

/-- The note sideband of a `TICK` (41_envelope_gate.md R207); `NOTE_EV = 0b11` is treated as 0b00
(30_encoding.md R107). -/
def noteSideband (noteEv : BitVec 2) (noteNum : BitVec 8) (s : State) : State :=
  match noteEv.toNat with
  | 1 => noteOnOp noteNum s
  | 2 => noteOffOp noteNum s
  | _ => s

/-- Reset of a running block (70_reset_and_hazards.md R380): every piece of the spec's state at the
value of 10_state.md R50 and `CMDQ` emptied. The parameters are not touched, and what lies outside the
block stands: the words still presented, the moves to come, the records answered, the draws taken. -/
def resetOp (s : State) : State :=
  { State.resetOf s.cfg with
      ctrlIn := s.ctrlIn, agenda := s.agenda, draws := s.draws, out := s.out }

/-- `CMDQ` has no room for another word (20_memory.md R77). -/
def cmdqFull (s : State) : Bool :=
  match s.cfg.fifoDepth with
  | none => false
  | some n => decide (n ≤ s.cmdq.length)

/-- The control port takes the word presented to it; a full queue leaves the word where it is, still
presented, so that none is dropped (20_memory.md R77). -/
def acceptOp (s : State) : State :=
  match s.ctrlIn with
  | [] => s
  | w :: ws => if cmdqFull s then s else { s with ctrlIn := ws, cmdq := s.cmdq ++ [w] }

/-- The executor takes the head of `CMDQ` (44_render_system.md R302): only in a gap, and only if there
is a word (20_memory.md R78, R80). -/
def executeOp (s : State) : Option Instr × State :=
  if s.inBuffer then (none, s)
  else
    match s.cmdq with
    | [] => (none, s)
    | w :: q => (some (decodeCommand w), { s with cmdq := q })

/-- The effect of one move of `agenda`, up to the instruction it brings, if it brings one. An idle
event code brings none (30_encoding.md R107). -/
def turnOp (t : Turn) (s : State) : Option Instr × State :=
  match t with
  | .accept => (none, acceptOp s)
  | .execute => executeOp s
  | .event e => (decodeEvent e, s)
  | .reset => (none, resetOp s)

/-- Take the next move from `agenda` and make it. With none to come the block holds its state
(60_exceptions.md R365, 44_render_system.md R314). -/
def fetch (s : State) : Option Instr × State :=
  match s.agenda with
  | [] => (none, s)
  | t :: rest => turnOp t { s with agenda := rest }

/-- `s` with the port word `w` placed where the next step takes it, and the block in the phase in which
it takes it: a command at the head of `CMDQ` in a gap, with the executor to move; an event next on the
render port, outside a buffer for `BUF_START` and inside one for `TICK` and `BUF_END`. -/
def State.withPortWord (s : State) (w : PortWord) : State :=
  match w with
  | .command c => { s with inBuffer := false, cmdq := c :: s.cmdq, agenda := .execute :: s.agenda }
  | .event e => { s with inBuffer := decide (2 ≤ (evtField e).toNat), agenda := .event e :: s.agenda }

end Sys2Proof.Machine
end

