-- ==== Sys2Proof/Machine/Amplitude.lean ====
section
/-! DEFINITION. The amplitude unit (41_envelope_gate.md): its commands (R191 to R201), the ADSR tick
(R210 to R219) and the Gate tick (R225 to R228). -/

namespace Sys2Proof.Machine

/-- `AMP_MODE b` (R191): no running state of either machine changes. -/
def execAmpMode (b : Bool) (s : State) : Host.Outcome State Fault Refusal :=
  .next { s with ampMode := ampModeOf b }

/-- `OUTPUT_LEVEL v` (R192). -/
def execOutputLevel (v : F32) (s : State) : Host.Outcome State Fault Refusal :=
  .next (whenFinite v (fun s => { s with outputLevel := floorMinEnv s.cfg v }) s)

/-- `ENV_ATTACK ms` (R193). -/
def execEnvAttack (ms : Word32) (s : State) : Host.Outcome State Fault Refusal :=
  .next { s with attackMs := floorMs ms }

/-- `ENV_DECAY ms` (R194). -/
def execEnvDecay (ms : Word32) (s : State) : Host.Outcome State Fault Refusal :=
  .next { s with decayMs := floorMs ms }

/-- `ENV_RELEASE ms` (R195). -/
def execEnvRelease (ms : Word32) (s : State) : Host.Outcome State Fault Refusal :=
  .next { s with releaseMs := floorMs ms }

/-- `ENV_SUSTAIN_LEN ms` (R196). -/
def execEnvSustainLen (ms : Word32) (s : State) : Host.Outcome State Fault Refusal :=
  .next { s with sustainMs := floorMs ms }

/-- `ENV_SUSTAIN_LVL v` (R197). -/
def execEnvSustainLvl (v : F32) (s : State) : Host.Outcome State Fault Refusal :=
  .next (whenFinite v (fun s => { s with sustainDb := floorZero v }) s)

/-- `GATE_DUTY v` (R198). -/
def execGateDuty (v : F32) (s : State) : Host.Outcome State Fault Refusal :=
  .next (whenFinite v (fun s => { s with gateDuty := clampNine v }) s)

/-- `GATE_NOTE_LEN ms` (R199): the counters are kept. -/
def execGateNoteLen (ms : Word32) (s : State) : Host.Outcome State Fault Refusal :=
  .next { s with gateLenMs := floorMs ms }

/-- `NOTE_ON n` (R200). -/
def execNoteOn (n : BitVec 8) (s : State) : Host.Outcome State Fault Refusal := .next (noteOnOp n s)

/-- `NOTE_OFF n` (R201). -/
def execNoteOff (n : BitVec 8) (s : State) : Host.Outcome State Fault Refusal := .next (noteOffOp n s)

/-- `samples_f(t)` (00_scope.md R14). -/
def samplesF (c : Config) (t : F32) : Word32 := ((c.sampleRate.div F32.thousand).mul t).roundU32

/-- `samples(ms)` (00_scope.md R14). -/
def samples (c : Config) (ms : Word32) : Word32 := samplesF c (F32.ofI32 ms)

/-- `SUS_LEVEL` (10_state.md R32). -/
def susLevel (s : State) : F32 := (s.outputLevel.sub s.sustainDb).max s.cfg.minEnvLevel

/-- `GATE_TOTAL` (10_state.md R32). -/
def gateTotal (s : State) : Word32 := samples s.cfg s.gateLenMs

/-- `GATE_ON_MAX` (10_state.md R32). -/
def gateOnMax (s : State) : Word32 :=
  let on := samplesF s.cfg ((F32.ofI32 s.gateLenMs).mul s.gateDuty)
  if on ≤ gateTotal s then on else gateTotal s

/-- `GATE_OFF_MAX` (10_state.md R32). -/
def gateOffMax (s : State) : Word32 := gateTotal s - gateOnMax s

/-- A u32 counter that holds at 4294967295 (60_exceptions.md R361, 41_envelope_gate.md R226). -/
def satInc (c : Word32) : Word32 := if c = BitVec.allOnes 32 then c else c + 1

/-- Step 1 of the ADSR tick, note inspection (R211). -/
def inspectNote (s : State) : State :=
  match s.noteState with
  | .noteOn => { s with envStage := .attack, envExt := .playing, susCnt := 0, noteState := .noteHold }
  | .noteOff =>
    if s.envExt = .playing ∧ s.envStage ≠ .release then { s with envStage := .release } else s
  | .rest => s
  | .noteHold => s

/-- The per-sample increment `d / f32_of_u32(n)` of the segment law (R213). -/
def increment (d : F32) (n : Word32) : F32 := d.div (F32.ofU32 n)

/-- The segment law snaps at once when the stage has no samples or no distance (R213). -/
def snaps (d : F32) (n : Word32) : Bool := n == 0 || d.feq F32.zero

/-- The segment law (R213): the level snaps to the target when the stage has no samples or no distance,
else it makes the given move. -/
def segmentLaw (d : F32) (n : Word32) (target moved : F32) : F32 := if snaps d n then target else moved

/-- The level that step 3 in Attack moves to, before the crossing test (R214). -/
def attackLevel (s : State) : F32 :=
  let d := (s.cfg.minEnvLevel.sub s.outputLevel).abs
  let n := samples s.cfg s.attackMs
  segmentLaw d n s.outputLevel (s.envLevel.add (increment d n))

/-- The level that step 3 in Decay moves to, before the crossing test (R215). -/
def decayLevel (s : State) : F32 :=
  let d := (s.outputLevel.sub (susLevel s)).abs
  let n := samples s.cfg s.decayMs
  segmentLaw d n (susLevel s) (s.envLevel.sub (increment d n))

/-- The level that step 3 in Release moves to, before the crossing test (R217). -/
def releaseLevel (s : State) : F32 :=
  let d := ((susLevel s).sub s.cfg.minEnvLevel).abs
  let n := samples s.cfg s.releaseMs
  segmentLaw d n s.cfg.minEnvLevel (s.envLevel.sub (increment d n))

/-- Step 3 in Attack (R214). -/
def attackStep (s : State) : State :=
  if s.outputLevel.le (attackLevel s) then { s with envLevel := s.outputLevel, envStage := .decay }
  else { s with envLevel := attackLevel s }

/-- Step 3 in Decay (R215). -/
def decayStep (s : State) : State :=
  if (decayLevel s).le (susLevel s) then
    { s with envLevel := susLevel s, envStage := .sustain, susCnt := 0 }
  else { s with envLevel := decayLevel s }

/-- Step 3 in Sustain (R216). -/
def sustainStep (s : State) : State :=
  if samples s.cfg s.sustainMs ≤ satInc s.susCnt then
    { s with susCnt := satInc s.susCnt, envStage := .release }
  else { s with susCnt := satInc s.susCnt }

/-- Step 3 in Release (R217). -/
def releaseStep (s : State) : State :=
  if (releaseLevel s).le s.cfg.minEnvLevel then
    { s with envLevel := s.cfg.minEnvLevel, envStage := .attack, envExt := .stopped }
  else { s with envLevel := releaseLevel s }

/-- Step 3 of the ADSR tick: the step of the present stage (R214 to R217). -/
def stageStep (s : State) : State :=
  match s.envStage with
  | .attack => attackStep s
  | .decay => decayStep s
  | .sustain => sustainStep s
  | .release => releaseStep s

/-- Step 4 of the ADSR tick, the clamp of a level (R218): first to the peak, then to the floor. -/
def clampEnv (c : Config) (peak l : F32) : F32 :=
  let l1 := if peak.lt l then peak else l
  if l1.lt c.minEnvLevel then c.minEnvLevel else l1

/-- Step 5 of the ADSR tick, the output (R219). -/
def envOut (s : State) : AmpOut :=
  match s.envExt with
  | .stopped => .stopped
  | .playing => .playing (db2lin s.envLevel)

/-- Steps 3 and 4 of the ADSR tick. -/
def envAdvance (s : State) : State :=
  let s1 := stageStep s
  { s1 with envLevel := clampEnv s1.cfg s1.outputLevel s1.envLevel }

/-- The ADSR tick (R210 to R219); while `Stopped` after step 1 it ends there (R212). -/
def adsrTick (s : State) : AmpOut × State :=
  let s1 := inspectNote s
  match s1.envExt with
  | .stopped => (.stopped, s1)
  | .playing => (envOut (envAdvance s1), envAdvance s1)

/-- The Gate tick (R226 to R228): the output, `NOTE_ADVANCE`, and the state. -/
def gateTick (s : State) : (AmpOut × Bool) × State :=
  match s.gateState with
  | .on =>
    ((.playing (db2lin s.outputLevel), false),
      if gateOnMax s ≤ satInc s.gateOnCnt then
        { s with gateOnCnt := satInc s.gateOnCnt, gateState := .off, gateOffCnt := 0 }
      else { s with gateOnCnt := satInc s.gateOnCnt })
  | .off =>
    ((.stopped, false),
      if gateOffMax s ≤ satInc s.gateOffCnt then
        { s with gateOffCnt := satInc s.gateOffCnt, gateState := .done }
      else { s with gateOffCnt := satInc s.gateOffCnt })
  | .done => ((.stopped, true), { s with gateState := .on, gateOnCnt := 0 })

/-- The amplitude tick (R208): exactly one of the two machines runs. -/
def ampTick (s : State) : (AmpOut × Bool) × State :=
  match s.ampMode with
  | .envelope => (((adsrTick s).1, false), (adsrTick s).2)
  | .gate => gateTick s

end Sys2Proof.Machine
end

