-- ==== Sys2Proof/Machine/Filter.lean ====
section
/-! DEFINITION. The filter (42_filter.md): its commands (R241 to R243) and the filter tick (R250 to R253). -/

namespace Sys2Proof.Machine

/-- `FLT_CUTOFF v` (R241). -/
def execFltCutoff (v : F32) (s : State) : Host.Outcome State Fault Refusal :=
  .next (whenFinite v (fun s => { s with fltCutoff := floorZero v }) s)

/-- `FLT_RESONANCE v` (R242). -/
def execFltResonance (v : F32) (s : State) : Host.Outcome State Fault Refusal :=
  .next (whenFinite v (fun s => { s with fltQ := clampOne v }) s)

/-- `FLT_POLES p` (R243): a count other than 1, 2, 3 executes as `NOP`; the integrators are kept. -/
def execFltPoles (p : Word32) (s : State) : Host.Outcome State Fault Refusal :=
  .next (match polesOf p with
    | some k => { s with fltPoles := k }
    | none => asNop s)

/-- The active stages of a pole count, ascending (R252). -/
def stagesOf : Poles → List (Fin 3)
  | .one => [0]
  | .two => [0, 1]
  | .three => [0, 1, 2]

/-- `nf`, the normalised frequency, with the cutoff scaled by the filter-mod LFO (R250). -/
def normFreq (v2 : Option F32) (s : State) : F32 :=
  let cut := match v2 with
    | some v => s.fltCutoff.mul v
    | none => s.fltCutoff
  (F32.pi.mul cut).div s.cfg.sampleRate

/-- `fb = FLT_Q + (FLT_Q / (1.0 - nf))` (R252). -/
def feedback (q nf : F32) : F32 := q.add (q.div (F32.one.sub nf))

/-- The integrators of one stage after a frame, and the index of the next free draw. -/
structure StageOut where
  b0 : F32
  b1 : F32
  draws : Nat
deriving DecidableEq, Repr

/-- One stage of the recurrence (R252); its output is the new `b1`. -/
def stage (nf fb x b0 b1 : F32) (n : Nat) : StageOut :=
  let high := x.sub b0
  let band := b0.sub b1
  let b0' := drawNaN (b0.add (nf.mul (high.add (fb.mul band)))) n
  let b1' := drawNaN (b1.add (nf.mul (b0'.val.sub b1))) b0'.draws
  ⟨b0'.val, b1'.val, b1'.draws⟩

/-- The cascade over a list of stages: each stage's output is the next one's input (R252, R253). -/
def cascade (nf fb : F32) : List (Fin 3) → F32 → State → F32 × State
  | [], x, s => (x, s)
  | k :: ks, x, s =>
    let r := stage nf fb x s.buf0[k] s.buf1[k] s.draws
    cascade nf fb ks r.b1 ((s.setStage k r.b0 r.b1).setDraws r.draws)

/-- A negative `nf` is taken as 0 (R252). -/
def clampNf (nf : F32) : F32 := if nf.lt F32.zero then F32.zero else nf

/-- The filter tick (R250 to R253): bypass unless `nf < NF_BYPASS` (R251), then the output is the input
and no integrator is written. DEDUCED: a modulation of minus infinity makes `nf` minus infinity, which R251
and R252 hold at `nf = 0`, where a remark of 70_reset_and_hazards.md R392 calls every infinite cutoff a
bypass (notes/assumptions/27.md). -/
def filterTick (mix : F32) (v2 : Option F32) (s : State) : F32 × State :=
  let nf := normFreq v2 s
  if nf.lt s.cfg.nfBypass then
    cascade (clampNf nf) (feedback s.fltQ (clampNf nf)) (stagesOf s.fltPoles) mix s
  else (mix, s)

end Sys2Proof.Machine
end

