-- ==== Sys2Proof/Machine/Wave.lean ====
section
/-! DEFINITION. The wave algorithms (40_oscillator.md R150 to R161): the value of a frame from the
phases as they stand, and the phases after the frame's advance. -/

namespace Sys2Proof.Machine

/-- What one evaluation of a wave gives: the value, the phases after the advance, and the index of the
next free draw. -/
structure WaveOut where
  w : F32
  ph : Vector F32 7
  draws : Nat
deriving DecidableEq, Repr

/-- The modulation value, or its neutral value for `None` (40_oscillator.md R151). -/
def modOr (m : Option F32) (neutral : F32) : F32 :=
  match m with
  | some v => v
  | none => neutral

/-- `PH <- wrap(PH + inc)` (40_oscillator.md R150). -/
def advance (p inc : F32) : F32 := (p.add inc).wrap

/-- Sine, Square, Saw, Ramp, Triangle (40_oscillator.md R152 to R156): one phase, the increment
multiplied by the modulation, the value a function of the phase. -/
def rateWave (value : F32 → F32) (c : Config) (ph : Vector F32 7) (f : F32) (m : Option F32) (n : Nat) :
    WaveOut :=
  ⟨value ph[0], ph.set 0 (advance ph[0] ((f.mul (modOr m F32.one)).div c.sampleRate)), n⟩

/-- 40_oscillator.md R153. -/
def squareValue (p : F32) : F32 := if p.lt F32.half then F32.one else F32.negOne

/-- 40_oscillator.md R154. -/
def sawValue (p : F32) : F32 := F32.one.sub (F32.two.mul p)

/-- 40_oscillator.md R155. -/
def rampValue (p : F32) : F32 := (F32.two.mul p).sub F32.one

/-- 40_oscillator.md R156. -/
def triangleValue (p : F32) : F32 :=
  if p.lt F32.quarter then F32.four.mul p
  else if p.lt F32.threeQuarters then F32.two.sub (F32.four.mul p)
  else (F32.four.mul p).sub F32.four

/-- The duty `d` of a Pulse (40_oscillator.md R157). -/
def pulseDuty (m : Option F32) (p0 : F32) : F32 :=
  (p0.add (modOr m F32.zero)).clamp F32.zero F32.one

/-- Pulse (40_oscillator.md R157). -/
def pulseWave (c : Config) (ph : Vector F32 7) (f : F32) (m : Option F32) (p0 : F32) (n : Nat) : WaveOut :=
  ⟨if ph[0].lt (pulseDuty m p0) then F32.one else F32.negOne,
    ph.set 0 (advance ph[0] (f.div c.sampleRate)), n⟩

/-- Noise (40_oscillator.md R158): one draw, no phase read or written. -/
def noiseWave (ph : Vector F32 7) (n : Nat) : WaveOut := ⟨noiseDraw n, ph, n + 1⟩

/-- `DET[k]` (40_oscillator.md R159). -/
def detune (c : Config) (k : Nat) : F32 :=
  F32.one.add ((c.ssDetune.mul (F32.ofInt ((k : Int) - 3))).div F32.three)

/-- One SuperSaw voice's phase after the frame (40_oscillator.md R159); `fm` is the modulated frequency. -/
def voicePhase (c : Config) (fm : F32) (ph : Vector F32 7) (k : Fin 7) : F32 :=
  advance ph[k] ((fm.mul (detune c k)).div c.sampleRate)

/-- The mean of the seven saws (40_oscillator.md R159), summed in ascending order. -/
def superSawValue (ph : Vector F32 7) : F32 :=
  (((((((F32.zero.add (sawValue ph[0])).add (sawValue ph[1])).add (sawValue ph[2])).add
    (sawValue ph[3])).add (sawValue ph[4])).add (sawValue ph[5])).add (sawValue ph[6])).div F32.seven

/-- SuperSaw (40_oscillator.md R159). -/
def superSawWave (c : Config) (ph : Vector F32 7) (f : F32) (m : Option F32) (n : Nat) : WaveOut :=
  let fm := f.mul (modOr m F32.one)
  ⟨superSawValue ph,
    #v[voicePhase c fm ph 0, voicePhase c fm ph 1, voicePhase c fm ph 2, voicePhase c fm ph 3,
      voicePhase c fm ph 4, voicePhase c fm ph 5, voicePhase c fm ph 6], n⟩

/-- The two phases of FM and AM after the frame (40_oscillator.md R160, R161); `r` is the ratio. -/
def carrierPhases (c : Config) (ph : Vector F32 7) (f : F32) (r : F32) : Vector F32 7 :=
  (ph.set 0 (advance ph[0] (f.div c.sampleRate))).set 1 (advance ph[1] ((f.mul r).div c.sampleRate))

/-- FM (40_oscillator.md R160). -/
def fmWave (c : Config) (ph : Vector F32 7) (f : F32) (m : Option F32) (p0 p1 : F32) (n : Nat) : WaveOut :=
  ⟨sin2pi ((ph[0].add (p1.mul (sin2pi ph[1]))).wrap),
    carrierPhases c ph f (p0.mul (modOr m F32.one)), n⟩

/-- AM (40_oscillator.md R161). -/
def amWave (c : Config) (ph : Vector F32 7) (f : F32) (m : Option F32) (p0 p1 : F32) (n : Nat) : WaveOut :=
  ⟨(sin2pi ph[0]).mul ((F32.one.add (p1.mul (sin2pi ph[1]))).div (F32.one.add p1.abs)),
    carrierPhases c ph f (p0.mul (modOr m F32.one)), n⟩

/-- `Wave(O, f, m, p0, p1)` (40_oscillator.md R150) of an oscillator object with the given shape and
phases; `n` is the index of the next free draw. -/
def wave (c : Config) (sh : Shape) (ph : Vector F32 7) (f : F32) (m : Option F32) (p0 p1 : F32) (n : Nat) :
    WaveOut :=
  match sh with
  | .sine => rateWave sin2pi c ph f m n
  | .square => rateWave squareValue c ph f m n
  | .saw => rateWave sawValue c ph f m n
  | .ramp => rateWave rampValue c ph f m n
  | .triangle => rateWave triangleValue c ph f m n
  | .noise => noiseWave ph n
  | .pulse => pulseWave c ph f m p0 n
  | .superSaw => superSawWave c ph f m n
  | .fm => fmWave c ph f m p0 p1 n
  | .am => amWave c ph f m p0 p1 n

end Sys2Proof.Machine
end

