-- ==== Sys2Proof/Machine/Lfo.lean ====
section
/-! DEFINITION. The LFO bank (43_lfo.md): its commands (R271 to R275) and the consultation (R280 to R282). -/

namespace Sys2Proof.Machine

/-- `LFO_ENABLE i, b` (R271): the phase is kept. -/
def execLfoEnable (idx : BitVec 8) (b : Bool) (s : State) : Host.Outcome State Fault Refusal :=
  .next (onLfo idx (fun l => { l with en := b }) s)

/-- `LFO_FREQ i, v` (R272). -/
def execLfoFreq (idx : BitVec 8) (v : F32) (s : State) : Host.Outcome State Fault Refusal :=
  .next (whenFinite v (onLfo idx (fun l => { l with freq := floorZero v })) s)

/-- `LFO_CENTER i, v` (R273). -/
def execLfoCenter (idx : BitVec 8) (v : F32) (s : State) : Host.Outcome State Fault Refusal :=
  .next (whenFinite v (onLfo idx (fun l => { l with center := v })) s)

/-- `LFO_WIDTH i, v` (R274). -/
def execLfoWidth (idx : BitVec 8) (v : F32) (s : State) : Host.Outcome State Fault Refusal :=
  .next (whenFinite v (onLfo idx (fun l => { l with width := v })) s)

/-- `LFO_SHAPE i, c` (R275): the shape, and all seven phases zeroed. -/
def execLfoShape (idx : BitVec 8) (code : BitVec 4) (s : State) : Host.Outcome State Fault Refusal :=
  .next (onLfo idx (fun l => { l with shape := shapeOf code, ph := zeroPhases }) s)

/-- `Needed(i)` (R281): enabled, and for the oscillator-mod LFOs 4..7 a width that is not 0. -/
def needed (i : Fin 8) (s : State) : Bool :=
  s.lfos[i].en && (decide (i.val < 4) || !s.lfos[i].width.feq F32.zero)

/-- The value `CENTER + ((w × WIDTH) / 2.0)` (R282). -/
def lfoValue (l : Lfo) (w : F32) : F32 := l.center.add ((w.mul l.width).div F32.two)

/-- `Consult(i)` (R280): the value, and the state with the LFO's phases advanced; `none` and no change
if the LFO is not needed. -/
def consult (i : Fin 8) (s : State) : Option F32 × State :=
  if needed i s then
    let l := s.lfos[i]
    let o := wave s.cfg l.shape l.ph l.freq none lfoP0 lfoP1 s.draws
    let v := drawNaN (lfoValue l o.w) o.draws
    (some v.val, (s.setLfo i { l with ph := o.ph }).setDraws v.draws)
  else (none, s)

/-- The modulation values of the four slots, LFOs 4 to 7 in order (44_render_system.md R310, step 2). -/
def consultMods (s : State) : Vector (Option F32) 4 × State :=
  let r0 := consult 4 s
  let r1 := consult 5 r0.2
  let r2 := consult 6 r1.2
  let r3 := consult 7 r2.2
  (#v[r0.1, r1.1, r2.1, r3.1], r3.2)

end Sys2Proof.Machine
end

