-- ==== Sys2Proof/Machine/Oscillator.lean ====
section
/-! DEFINITION. The oscillator bank (40_oscillator.md): its commands (R132 to R141), the slot tick
(R142 to R148) and the mixer (R162). -/

namespace Sys2Proof.Machine

/-- `OSC_SHAPE s, c` (R132): the shape, and all seven phases zeroed, also when the shape stays. -/
def execOscShape (idx : BitVec 8) (code : BitVec 4) (s : State) : Host.Outcome State Fault Refusal :=
  .next (onSlot idx (fun sl => { sl with shape := shapeOf code, ph := zeroPhases }) s)

/-- `OSC_LEVEL s, v` (R133). -/
def execOscLevel (idx : BitVec 8) (v : F32) (s : State) : Host.Outcome State Fault Refusal :=
  .next (whenFinite v (onSlot idx (fun sl => { sl with level := floorZero v })) s)

/-- `OSC_SHAPER s, v` (R134). -/
def execOscShaper (idx : BitVec 8) (v : F32) (s : State) : Host.Outcome State Fault Refusal :=
  .next (whenFinite v (onSlot idx (fun sl => { sl with shaper := clampNine v })) s)

/-- `OSC_INTERVAL s, n` (R135). -/
def execOscInterval (idx : BitVec 8) (n : Word32) (s : State) : Host.Outcome State Fault Refusal :=
  .next (onSlot idx (fun sl => { sl with interval := n }) s)

/-- `OSC_PARAM0 s, v` (R136). -/
def execOscParam0 (idx : BitVec 8) (v : F32) (s : State) : Host.Outcome State Fault Refusal :=
  .next (whenFinite v (onSlot idx (fun sl => { sl with p0 := v })) s)

/-- `OSC_PARAM1 s, v` (R137). -/
def execOscParam1 (idx : BitVec 8) (v : F32) (s : State) : Host.Outcome State Fault Refusal :=
  .next (whenFinite v (onSlot idx (fun sl => { sl with p1 := v })) s)

/-- `UNISON_EN b` (R138). -/
def execUnisonEn (b : Bool) (s : State) : Host.Outcome State Fault Refusal :=
  .next { s with unisonEn := b }

/-- `UNISON_SPREAD v` (R139). -/
def execUnisonSpread (v : F32) (s : State) : Host.Outcome State Fault Refusal :=
  .next (whenFinite v (fun s => { s with unisonSpread := v }) s)

/-- `CONST_LEVEL b` (R140). -/
def execConstLevel (b : Bool) (s : State) : Host.Outcome State Fault Refusal :=
  .next { s with constLevel := b }

/-- A slot with its phases zeroed (R141). -/
def zeroSlotPhases (sl : Slot) : Slot := { sl with ph := zeroPhases }

/-- `RESYNC` (R141): the phases of the four slots, and nothing else; not those of the LFOs. -/
def execResync (s : State) : Host.Outcome State Fault Refusal :=
  .next { s with slots :=
    #v[zeroSlotPhases s.slots[0], zeroSlotPhases s.slots[1], zeroSlotPhases s.slots[2],
      zeroSlotPhases s.slots[3]] }

/-- `NoteFreq(s)` (R144): a rest is tested first; the sum is exact; outside the table it is 0 Hz. -/
def noteFreq (i : Fin 4) (s : State) : F32 :=
  if 128 ≤ s.curNote.toNat then F32.zero
  else
    let k : Int := (s.curNote.toNat : Int) + s.slots[i].interval.toInt
    if k < 0 ∨ 127 < k then F32.zero else s.cfg.romRead k.toNat

/-- `Unison(s, f0)` (R145). -/
def unison (i : Fin 4) (f0 : F32) (s : State) : F32 :=
  if s.unisonEn = true ∧ s.cfg.unisonSign[i] ≠ .zero then
    f0.mul (F32.one.add (s.cfg.unisonSign[i].toF32.mul (s.unisonSpread.div F32.two)))
  else f0

/-- The saturator `Sat(a, x)` (R148). -/
def sat (a x : F32) : F32 :=
  let shape := (F32.two.mul a).div (F32.one.sub a)
  ((F32.one.add shape).mul x).div (F32.one.add (shape.mul x.abs))

/-- `SlotTick(s, m)` (R142): the slot's output, and the state with its phases advanced. Level 0 or
frequency 0 gives 0.0 without running the wave (R146); the level multiplies after the saturator (R147). -/
def slotTick (i : Fin 4) (m : Option F32) (s : State) : F32 × State :=
  let sl := s.slots[i]
  let f := unison i (noteFreq i s) s
  if sl.level.feq F32.zero || f.feq F32.zero then (F32.zero, s)
  else
    let o := wave s.cfg sl.shape sl.ph f m sl.p0 sl.p1 s.draws
    let y := drawNaN (sl.level.mul (sat sl.shaper o.w)) o.draws
    (y.val, (s.setSlot i { sl with ph := o.ph }).setDraws y.draws)

/-- The four slots in order (44_render_system.md R310, step 3). -/
def slotTicks (m : Vector (Option F32) 4) (s : State) : Vector F32 4 × State :=
  let r0 := slotTick 0 m[0] s
  let r1 := slotTick 1 m[1] r0.2
  let r2 := slotTick 2 m[2] r1.2
  let r3 := slotTick 3 m[3] r2.2
  (#v[r0.1, r1.1, r2.1, r3.1], r3.2)

/-- The mix of the slot outputs before a NaN's bits are drawn (R162). -/
def mixValue (y : Vector F32 4) (s : State) : F32 :=
  let sum := ((y[0].add y[1]).add y[2]).add y[3]
  if s.constLevel then
    let l := ((s.slots[0].level.add s.slots[1].level).add s.slots[2].level).add s.slots[3].level
    if F32.zero.lt l then sum.div l else F32.zero
  else sum.div F32.four

/-- The mixer (R162). -/
def mixer (y : Vector F32 4) (s : State) : F32 × State :=
  let v := drawNaN (mixValue y s) s.draws
  (v.val, s.setDraws v.draws)

end Sys2Proof.Machine
end

