-- ==== Sys2Proof/Machine/System.lean ====
section
/-! DEFINITION. `NOP` and the three events of the render port (44_render_system.md). -/

namespace Sys2Proof.Machine

/-- `NOP` (R301): nothing; its word has left `CMDQ` already (Ops.executeOp). -/
def execNop (s : State) : Host.Outcome State Fault Refusal := .next (asNop s)

/-- `BUF_START` (R303); refused without effect inside a buffer (R307). -/
def execBufStart (s : State) : Host.Outcome State Fault Refusal :=
  .next (if s.inBuffer then s else { s with inBuffer := true })

/-- `BUF_END` (R306); refused without effect outside a buffer (R307). -/
def execBufEnd (s : State) : Host.Outcome State Fault Refusal :=
  .next (if s.inBuffer then { s with inBuffer := false } else s)

/-- The frame pipeline (R310): note sideband, LFOs 4 to 7, slots, mixer, LFO 2, filter, LFOs 0, 1, 3,
amplitude unit, output record (R311), each on the state the one before leaves. -/
def renderFrame (noteEv : BitVec 2) (noteNum : BitVec 8) (s : State) : State :=
  let m := consultMods (noteSideband noteEv noteNum s)
  let y := slotTicks m.1 m.2
  let mix := mixer y.1 y.2
  let v2 := consult 2 mix.2
  let flt := filterTick mix.1 v2.1 v2.2
  let pan := consult 0 flt.2
  let trem := consult 1 pan.2
  let phs := consult 3 trem.2
  let amp := ampTick phs.2
  amp.2.emit
    { sig := flt.1, amp := amp.1.1, noteAdvance := amp.1.2, lfoPan := pan.1, lfoTrem := trem.1,
      lfoPhaser := phs.1, lfoFlt := v2.1, oscMod := m.1, mix := mix.1, y := y.1 }

/-- `TICK` (R305): one frame inside a buffer; refused without effect outside (R307). -/
def execTick (noteEv : BitVec 2) (noteNum : BitVec 8) (s : State) : Host.Outcome State Fault Refusal :=
  .next (if s.inBuffer then renderFrame noteEv noteNum s else s)

end Sys2Proof.Machine
end

