-- ==== Sys2Proof/Machine/Dispatch.lean ====
section
/-! DEFINITION. One arm per instruction, each a direct call of its meaning. -/

namespace Sys2Proof.Machine

def exec (i : Instr) (s : State) : Host.Outcome State Fault Refusal :=
  match i with
  | .nop => Sys2Proof.Machine.execNop s
  | .resync => Sys2Proof.Machine.execResync s
  | .oscShape idx code => Sys2Proof.Machine.execOscShape idx code s
  | .oscLevel idx v => Sys2Proof.Machine.execOscLevel idx v s
  | .oscShaper idx v => Sys2Proof.Machine.execOscShaper idx v s
  | .oscInterval idx n => Sys2Proof.Machine.execOscInterval idx n s
  | .oscParam0 idx v => Sys2Proof.Machine.execOscParam0 idx v s
  | .oscParam1 idx v => Sys2Proof.Machine.execOscParam1 idx v s
  | .unisonEn b => Sys2Proof.Machine.execUnisonEn b s
  | .unisonSpread v => Sys2Proof.Machine.execUnisonSpread v s
  | .constLevel b => Sys2Proof.Machine.execConstLevel b s
  | .ampMode b => Sys2Proof.Machine.execAmpMode b s
  | .outputLevel v => Sys2Proof.Machine.execOutputLevel v s
  | .envAttack ms => Sys2Proof.Machine.execEnvAttack ms s
  | .envDecay ms => Sys2Proof.Machine.execEnvDecay ms s
  | .envRelease ms => Sys2Proof.Machine.execEnvRelease ms s
  | .envSustainLen ms => Sys2Proof.Machine.execEnvSustainLen ms s
  | .envSustainLvl v => Sys2Proof.Machine.execEnvSustainLvl v s
  | .gateDuty v => Sys2Proof.Machine.execGateDuty v s
  | .gateNoteLen ms => Sys2Proof.Machine.execGateNoteLen ms s
  | .noteOn n => Sys2Proof.Machine.execNoteOn n s
  | .noteOff n => Sys2Proof.Machine.execNoteOff n s
  | .fltCutoff v => Sys2Proof.Machine.execFltCutoff v s
  | .fltResonance v => Sys2Proof.Machine.execFltResonance v s
  | .fltPoles p => Sys2Proof.Machine.execFltPoles p s
  | .lfoEnable idx b => Sys2Proof.Machine.execLfoEnable idx b s
  | .lfoFreq idx v => Sys2Proof.Machine.execLfoFreq idx v s
  | .lfoCenter idx v => Sys2Proof.Machine.execLfoCenter idx v s
  | .lfoWidth idx v => Sys2Proof.Machine.execLfoWidth idx v s
  | .lfoShape idx code => Sys2Proof.Machine.execLfoShape idx code s
  | .bufStart => Sys2Proof.Machine.execBufStart s
  | .tick noteEv noteNum => Sys2Proof.Machine.execTick noteEv noteNum s
  | .bufEnd => Sys2Proof.Machine.execBufEnd s

end Sys2Proof.Machine
end

