-- ==== Sys2Proof/Machine/Step.lean ====
section
/-! DEFINITION. One step: the next move of `agenda`, and the instruction it brings, if it brings one. -/

namespace Sys2Proof.Machine

/-- One indivisible step (20_memory.md R82). A move that brings no instruction (a word accepted or kept
waiting, a held or idle executor, an idle event code, reset, nothing to come) is a step of its own. -/
def step (s : State) : Host.Outcome State Fault Refusal :=
  match (fetch s).1 with
  | none => .next (fetch s).2
  | some i => exec i (fetch s).2

/-- The instruction of the opcode table whose bits are `w`, stored where `step` takes its next one
(notes/assumptions/5.md). -/
def State.withFetchWord (s : State) (nbits w : Nat) : State := s.withPortWord (tablePortWord nbits w)

end Sys2Proof.Machine
end

