-- ==== Sys2Proof/Safety.lean ====
section
/-! DEFINITION. What counts as a legal state and a safe step, the groups of registers the rules speak
of (parameter registers, running state, front end), and runs of the executor. -/

namespace Sys2Proof.Machine

/-- The legal values of a slot (10_state.md R23, R24). -/
structure Slot.Legal (sl : Slot) : Prop where
  levelFinite : sl.level.isFinite = true
  levelNonneg : F32.le F32.zero sl.level = true
  shaperLow : F32.le F32.zero sl.shaper = true
  shaperHigh : F32.le sl.shaper F32.pointNine = true
  p0Finite : sl.p0.isFinite = true
  p1Finite : sl.p1.isFinite = true
  phases : ∀ k : Fin 7, inUnit sl.ph[k] = true

/-- The legal values of an LFO (10_state.md R27, R28). -/
structure Lfo.Legal (l : Lfo) : Prop where
  freqFinite : l.freq.isFinite = true
  freqNonneg : F32.le F32.zero l.freq = true
  centerFinite : l.center.isFinite = true
  widthFinite : l.width.isFinite = true
  phases : ∀ k : Fin 7, inUnit l.ph[k] = true

/-- The legal values of the whole state: the ranges 10_state.md gives each register (R23 to R34), the
parameters' ranges (00_scope.md R8), the envelope's bound (10_state.md R41), and the queue's capacity
(R45). That a stopped envelope stands at `MIN_ENV_LEVEL` and that the note is the rest sentinel exactly
when `NOTE_STATE` is Rest follow from the rules that write them (41_envelope_gate.md R205, R217). -/
structure State.Legal (s : State) : Prop where
  cfg : s.cfg.wf = true
  slots : ∀ i : Fin 4, s.slots[i].Legal
  unisonSpread : s.unisonSpread.isFinite = true
  lfos : ∀ i : Fin 8, s.lfos[i].Legal
  cutoffFinite : s.fltCutoff.isFinite = true
  cutoffNonneg : F32.le F32.zero s.fltCutoff = true
  qLow : F32.le F32.zero s.fltQ = true
  qHigh : F32.le s.fltQ F32.one = true
  outputFinite : s.outputLevel.isFinite = true
  outputLow : F32.le s.cfg.minEnvLevel s.outputLevel = true
  attack : 0 ≤ s.attackMs.toInt
  decay : 0 ≤ s.decayMs.toInt
  release : 0 ≤ s.releaseMs.toInt
  sustain : 0 ≤ s.sustainMs.toInt
  sustainDbFinite : s.sustainDb.isFinite = true
  sustainDbNonneg : F32.le F32.zero s.sustainDb = true
  dutyLow : F32.le F32.zero s.gateDuty = true
  dutyHigh : F32.le s.gateDuty F32.pointNine = true
  gateLen : 0 ≤ s.gateLenMs.toInt
  note : s.curNote.toNat ≤ 128
  noteRest : s.noteState = .rest ↔ s.curNote = 128
  envFinite : s.envLevel.isFinite = true
  envLow : F32.le s.cfg.minEnvLevel s.envLevel = true
  envStopped : s.envExt = .stopped → s.envLevel = s.cfg.minEnvLevel
  queue : ∀ n, s.cfg.fifoDepth = some n → s.cmdq.length ≤ n

/-- Every piece of the spec's state at the value of the table in 10_state.md R50, the values written out. -/
structure State.AtReset (s : State) : Prop where
  slots : ∀ i : Fin 4, s.slots[i] =
    { shape := .sine, level := ⟨0x00000000⟩, shaper := ⟨0x00000000⟩, interval := 0, p0 := ⟨0x3F000000⟩,
      p1 := ⟨0x00000000⟩, ph := Vector.replicate 7 ⟨0x00000000⟩ }
  unisonEn : s.unisonEn = false
  unisonSpread : s.unisonSpread = ⟨0x00000000⟩
  constLevel : s.constLevel = false
  lfos : ∀ i : Fin 8, s.lfos[i] =
    { en := false, freq := ⟨0x3F800000⟩, center := ⟨0x3F800000⟩, width := ⟨0x00000000⟩, shape := .sine,
      ph := Vector.replicate 7 ⟨0x00000000⟩ }
  fltCutoff : s.fltCutoff = ⟨0x469C4000⟩
  fltQ : s.fltQ = ⟨0x00000000⟩
  fltPoles : s.fltPoles = .one
  buf0 : s.buf0 = Vector.replicate 3 ⟨0x00000000⟩
  buf1 : s.buf1 = Vector.replicate 3 ⟨0x00000000⟩
  ampMode : s.ampMode = .envelope
  outputLevel : s.outputLevel = ⟨0x00000000⟩
  attackMs : s.attackMs = 0
  decayMs : s.decayMs = 0
  releaseMs : s.releaseMs = 0
  sustainMs : s.sustainMs = 0
  sustainDb : s.sustainDb = ⟨0x00000000⟩
  gateDuty : s.gateDuty = ⟨0x3F000000⟩
  gateLenMs : s.gateLenMs = 0
  curNote : s.curNote = 128
  noteState : s.noteState = .rest
  envLevel : s.envLevel = s.cfg.minEnvLevel
  envStage : s.envStage = .attack
  envExt : s.envExt = .stopped
  susCnt : s.susCnt = 0
  gateState : s.gateState = .on
  gateOnCnt : s.gateOnCnt = 0
  gateOffCnt : s.gateOffCnt = 0
  inBuffer : s.inBuffer = false
  cmdq : s.cmdq = []

/-- The parameter registers of a slot (10_state.md R22, R23). -/
structure SlotParams where
  shape : Shape
  level : F32
  shaper : F32
  interval : Word32
  p0 : F32
  p1 : F32
deriving DecidableEq, Repr

/-- The parameter registers of an LFO (10_state.md R22, R27). -/
structure LfoParams where
  en : Bool
  freq : F32
  center : F32
  width : F32
  shape : Shape
deriving DecidableEq, Repr

/-- All parameter registers: what only commands and reset write (10_state.md R22). -/
structure Params where
  slots : Vector SlotParams 4
  unisonEn : Bool
  unisonSpread : F32
  constLevel : Bool
  lfos : Vector LfoParams 8
  fltCutoff : F32
  fltQ : F32
  fltPoles : Poles
  ampMode : AmpMode
  outputLevel : F32
  attackMs : Word32
  decayMs : Word32
  releaseMs : Word32
  sustainMs : Word32
  sustainDb : F32
  gateDuty : F32
  gateLenMs : Word32
deriving DecidableEq, Repr

/-- The parameter registers of a slot. -/
def Slot.params (sl : Slot) : SlotParams := ⟨sl.shape, sl.level, sl.shaper, sl.interval, sl.p0, sl.p1⟩

/-- The parameter registers of an LFO. -/
def Lfo.params (l : Lfo) : LfoParams := ⟨l.en, l.freq, l.center, l.width, l.shape⟩

/-- The parameter registers of a state. -/
def State.params (s : State) : Params where
  slots := #v[s.slots[0].params, s.slots[1].params, s.slots[2].params, s.slots[3].params]
  unisonEn := s.unisonEn
  unisonSpread := s.unisonSpread
  constLevel := s.constLevel
  lfos := #v[s.lfos[0].params, s.lfos[1].params, s.lfos[2].params, s.lfos[3].params,
    s.lfos[4].params, s.lfos[5].params, s.lfos[6].params, s.lfos[7].params]
  fltCutoff := s.fltCutoff
  fltQ := s.fltQ
  fltPoles := s.fltPoles
  ampMode := s.ampMode
  outputLevel := s.outputLevel
  attackMs := s.attackMs
  decayMs := s.decayMs
  releaseMs := s.releaseMs
  sustainMs := s.sustainMs
  sustainDb := s.sustainDb
  gateDuty := s.gateDuty
  gateLenMs := s.gateLenMs

/-- The running state that no command writes: filter integrators, ADSR and Gate (10_state.md R30, R40, R42). -/
structure Running where
  buf0 : Vector F32 3
  buf1 : Vector F32 3
  envLevel : F32
  envStage : EnvStage
  envExt : EnvExt
  susCnt : Word32
  gateState : GateState
  gateOnCnt : Word32
  gateOffCnt : Word32
deriving DecidableEq, Repr

/-- The running state that no command writes. -/
def State.running (s : State) : Running where
  buf0 := s.buf0
  buf1 := s.buf1
  envLevel := s.envLevel
  envStage := s.envStage
  envExt := s.envExt
  susCnt := s.susCnt
  gateState := s.gateState
  gateOnCnt := s.gateOnCnt
  gateOffCnt := s.gateOffCnt

/-- What the amplitude unit reads and writes (41_envelope_gate.md R208): its registers, the note and the
parameters of the machine. -/
structure AmpPart where
  cfg : Config
  ampMode : AmpMode
  outputLevel : F32
  attackMs : Word32
  decayMs : Word32
  releaseMs : Word32
  sustainMs : Word32
  sustainDb : F32
  gateDuty : F32
  gateLenMs : Word32
  curNote : BitVec 8
  noteState : NoteState
  envLevel : F32
  envStage : EnvStage
  envExt : EnvExt
  susCnt : Word32
  gateState : GateState
  gateOnCnt : Word32
  gateOffCnt : Word32
deriving DecidableEq, Repr

/-- The amplitude unit's part of a state. -/
def State.ampPart (s : State) : AmpPart where
  cfg := s.cfg
  ampMode := s.ampMode
  outputLevel := s.outputLevel
  attackMs := s.attackMs
  decayMs := s.decayMs
  releaseMs := s.releaseMs
  sustainMs := s.sustainMs
  sustainDb := s.sustainDb
  gateDuty := s.gateDuty
  gateLenMs := s.gateLenMs
  curNote := s.curNote
  noteState := s.noteState
  envLevel := s.envLevel
  envStage := s.envStage
  envExt := s.envExt
  susCnt := s.susCnt
  gateState := s.gateState
  gateOnCnt := s.gateOnCnt
  gateOffCnt := s.gateOffCnt

/-- The step answers a next state (60_exceptions.md R340). -/
def StepSafe (s : State) : Prop := ∃ t, step s = .next t

/-- Executing words one after another, each on the state the one before leaves (20_memory.md R78); a
fault or a refusal would end the run. -/
def runWords : List CommandWord → State → Host.Outcome State Fault Refusal
  | [], s => .next s
  | w :: ws, s =>
    match exec (decodeCommand w) s with
    | .next t => runWords ws t
    | .fault r => .fault r
    | .refused r => .refused r

/-- The state after n Gate ticks (41_envelope_gate.md R225). -/
def gateTicks : Nat → State → State
  | 0, s => s
  | n + 1, s => gateTicks n (gateTick s).2

/-- The state after n ADSR ticks (41_envelope_gate.md R210). -/
def adsrTicks : Nat → State → State
  | 0, s => s
  | n + 1, s => adsrTicks n (adsrTick s).2

/-- The state after n steps (20_memory.md R82); a fault or a refusal would hold it. -/
def run : Nat → State → State
  | 0, s => s
  | n + 1, s =>
    match step s with
    | .next t => run n t
    | .fault _ => s
    | .refused _ => s

/-- `x` is what a rule stores or exports for the value `v`: `v` itself, or some NaN for a NaN, whose sign
and payload no rule fixes (00_scope.md R12). -/
def StoredAs (v x : F32) : Prop := x = v ∨ (v.isNaN = true ∧ x.isNaN = true)

/-- The three formats of a command word, which differ in the fields that are read (30_encoding.md R101). -/
inductive CmdFormat where
  | n
  | p
  | x
deriving DecidableEq, Repr

/-- The format of an opcode, the column "Format" of the map in 30_encoding.md R106; an opcode that the map
does not list is `NOP` (R108), of format N. -/
def formatOf (opc : BitVec 8) : CmdFormat :=
  match opc.toNat with
  | 0x10 | 0x11 | 0x12 | 0x13 | 0x14 | 0x15 => .x
  | 0x16 | 0x17 | 0x18 => .p
  | 0x20 | 0x21 | 0x22 | 0x23 | 0x24 | 0x25 | 0x26 | 0x27 | 0x28 | 0x2A | 0x2B => .p
  | 0x30 | 0x31 | 0x32 => .p
  | 0x40 | 0x41 | 0x42 | 0x43 | 0x44 => .x
  | _ => .n

/-- The number of active filter stages (42_filter.md R252). -/
def Poles.count : Poles → Nat
  | .one => 1
  | .two => 2
  | .three => 3

/-- `BUF_END` or a reset among the moves to come ends the buffer the block is in (44_render_system.md R306,
70_reset_and_hazards.md R380). -/
def Turn.endsBuffer : Turn → Bool
  | .accept => false
  | .execute => false
  | .event e => evtField e == 3
  | .reset => true

end Sys2Proof.Machine
end

