-- ==== Sys2Proof/Certificates/Slice0/Obligations.lean ====
section
/-! DEFINITION. The statements for the provers. Each names the rules of spec/ it formalises; the witness
of its hypotheses stands in Sys2Proof/Tests/Slice0.lean under `witness_<name>`. -/

open Sys2Proof Sys2Proof.Machine

/-! ### Encoding -/

/-- Decoding an encoded instruction gives it back, with every operand at every value its field admits
(30_encoding.md R101, R104, R106, R107); that a command with an illegal operand decodes to its row's
constructor is notes/assumptions/11.md. -/
def Obligations.DecodeEncodeAgree : Prop := ∀ i : Instr, decode (encode i) = .ok i

/-- Two words that differ only in ignored bits are the same command (30_encoding.md R102). -/
def Obligations.DecodeIgnoresUnreadBits : Prop :=
  ∀ w v : BitVec 64,
    w.extractLsb' 56 8 = v.extractLsb' 56 8 →
    (formatOf (w.extractLsb' 56 8) = .x → w.extractLsb' 48 8 = v.extractLsb' 48 8) →
    (formatOf (w.extractLsb' 56 8) ≠ .n → w.extractLsb' 0 32 = v.extractLsb' 0 32) →
      decodeCommand w = decodeCommand v

/-- An opcode that the map does not list leaves the queue, changes no state and raises nothing
(30_encoding.md R108). -/
def Obligations.UnlistedOpcodesAreNop : Prop :=
  ∀ (s : State) (w : BitVec 64) (q : List CommandWord) (rest : List Turn),
    s.inBuffer = false → s.cmdq = w :: q → s.agenda = .execute :: rest →
    (let o := (w >>> 56).toNat;
      (0x02 ≤ o ∧ o ≤ 0x0F) ∨ (0x19 ≤ o ∧ o ≤ 0x1F) ∨ o = 0x29 ∨ (0x2C ≤ o ∧ o ≤ 0x2F) ∨
        (0x33 ≤ o ∧ o ≤ 0x3F) ∨ 0x45 ≤ o) →
      step s = .next { s with cmdq := q, agenda := rest }

/-- The event codes and the note sideband, the reserved `NOTE_EV` treated as none (30_encoding.md R107). -/
def Obligations.EventCodes : Prop :=
  ∀ (e : BitVec 2) (n : BitVec 8),
    decodeEvent (0b00#2 ++ e ++ n) = none ∧ decodeEvent (0b01#2 ++ e ++ n) = some .bufStart ∧
    decodeEvent (0b10#2 ++ e ++ n) = some (.tick e n) ∧ decodeEvent (0b11#2 ++ e ++ n) = some .bufEnd ∧
    (∀ (s : State) (rest : List Turn), s.agenda = .event (0b00#2 ++ e ++ n) :: rest →
      step s = .next { s with agenda := rest }) ∧
    ∀ s : State, noteSideband 0b00 n s = s ∧ noteSideband 0b01 n s = noteOnOp n s ∧
      noteSideband 0b10 n s = noteOffOp n s ∧ noteSideband 0b11 n s = s

/-- Words of 95_test_vectors.md, one for each family, decode to the commands they stand for
(30_encoding.md R101, R106). -/
def Obligations.KnownWordsDecode : Prop :=
  decodeCommand 0x110100003F000000 = .oscLevel 1 ⟨0x3F000000⟩ ∧
  decodeCommand 0x13000000FFFFFFF4 = .oscInterval 0 0xFFFFFFF4 ∧
  decodeCommand 0x2200000000000064 = .envAttack 100 ∧
  decodeCommand 0x2A00000000000045 = .noteOn 69 ∧
  decodeCommand 0x30000000447A0000 = .fltCutoff ⟨0x447A0000⟩ ∧
  decodeCommand 0x4402000000000004 = .lfoShape 2 4 ∧
  decodeCommand 0xFF12345678ABCDEF = .nop ∧
  decodeEvent 0b100101000101 = some (.tick 0b01 69)

/-! ### Steps, ports and phases -/

/-- A step runs the decoded instruction: the executor the head of `CMDQ`, which leaves the queue with it, the
render port the event it is given; and the word that `withPortWord` places is the one run next
(44_render_system.md R302, 20_memory.md R82; how a program comes to run: notes/assumptions/5.md). -/
def Obligations.StepRunsDecoded : Prop :=
  (∀ (s : State) (w : CommandWord) (q : List CommandWord) (rest : List Turn) (i : Instr),
    s.inBuffer = false → s.agenda = .execute :: rest → s.cmdq = w :: q → decode (.command w) = .ok i →
      step s = exec i { s with agenda := rest, cmdq := q }) ∧
  (∀ (s : State) (e : EventCode) (rest : List Turn) (i : Instr),
    s.agenda = .event e :: rest → decode (.event e) = .ok i → step s = exec i { s with agenda := rest }) ∧
  (∀ (s : State) (w : CommandWord),
    step (s.withPortWord (.command w)) = exec (decodeCommand w) { s with inBuffer := false }) ∧
  (∀ (s : State) (e : EventCode) (i : Instr), decodeEvent e = some i →
    step (s.withPortWord (.event e)) = exec i { s with inBuffer := decide (2 ≤ (evtField e).toNat) })

/-- While `IN_BUFFER = 1` the head of `CMDQ` waits, and an empty queue gives the executor nothing to run
(20_memory.md R80, 44_render_system.md R302); with no move to come the block holds its state
(44_render_system.md R314; the model's convention: notes/assumptions/20.md). -/
def Obligations.BufferHoldsCommands : Prop :=
  (∀ (s : State) (rest : List Turn), s.agenda = .execute :: rest → s.inBuffer = true ∨ s.cmdq = [] →
    step s = .next { s with agenda := rest }) ∧
  ∀ s : State, s.agenda = [] → step s = .next s

/-- The control port appends the presented word when `CMDQ` is not full, inside or outside a buffer; a full
queue leaves it presented, so that none is dropped (20_memory.md R77; the words presented are the model's
field `ctrlIn`: notes/assumptions/3.md). -/
def Obligations.ControlPortAccepts : Prop :=
  ∀ (s : State) (w : CommandWord) (ws : List CommandWord) (rest : List Turn),
    s.agenda = .accept :: rest → s.ctrlIn = w :: ws →
      (s.cfg.fifoDepth = none →
        step s = .next { s with agenda := rest, ctrlIn := ws, cmdq := s.cmdq ++ [w] }) ∧
      ∀ n : Nat, s.cfg.fifoDepth = some n →
        (s.cmdq.length < n →
          step s = .next { s with agenda := rest, ctrlIn := ws, cmdq := s.cmdq ++ [w] }) ∧
        (n ≤ s.cmdq.length → step s = .next { s with agenda := rest })

/-- Reset puts every piece of state at the value of the table, whatever the state was, and keeps the
parameters (10_state.md R50). -/
def Obligations.ResetValues : Prop :=
  State.reset.AtReset ∧
  ∀ (s : State) (rest : List Turn), s.agenda = .reset :: rest →
    ∃ t, step s = .next t ∧ t.AtReset ∧ t.cfg = s.cfg

/-- A command with an index out of range, a payload that is not finite or a pole count other than 1, 2, 3
executes as `NOP` (10_state.md R46, 30_encoding.md R103, R104, 44_render_system.md R301). -/
def Obligations.IllegalOperandsAreNop : Prop :=
  ∀ (i : Instr) (s : State), i.isCommand = true → i.wf = false → exec i s = .next s

/-- What a step can do to `CMDQ` and to what waits before it: nothing, and then it is no executor move that
could run a command; take the presented word at the tail; in a gap run the head and remove it; or, by reset,
empty the queue. No command is executed twice and none is skipped (10_state.md R45, 20_memory.md R77, R78, 44_render_system.md R302, 70_reset_and_hazards.md R380;
that reset keeps the words still presented is the model's choice: notes/assumptions/15.md). -/
def Obligations.QueueIsFifo : Prop :=
  ∀ s t : State, step s = .next t →
    (t.cmdq = s.cmdq ∧ t.ctrlIn = s.ctrlIn ∧
      ∀ rest, s.agenda = .execute :: rest → s.inBuffer = true ∨ s.cmdq = []) ∨
    (∃ w rest, s.agenda = .accept :: rest ∧ s.ctrlIn = w :: t.ctrlIn ∧ t.cmdq = s.cmdq ++ [w]) ∨
    (s.inBuffer = false ∧ t.ctrlIn = s.ctrlIn ∧ ∃ w rest, s.agenda = .execute :: rest ∧ s.cmdq = w :: t.cmdq ∧
      exec (decodeCommand w) { s with cmdq := t.cmdq, agenda := rest } = .next t) ∨
    ((∃ rest, s.agenda = .reset :: rest) ∧ t.cmdq = [] ∧ t.ctrlIn = s.ctrlIn)

/-- Any prefix of `CMDQ` may run in a gap, from none to all, and its effect is that of its words executed one
after another in the order they entered (20_memory.md R78, R81; the moves are read from the model's field
`agenda`: notes/assumptions/2.md). -/
def Obligations.AnyPrefixRunsInOrder : Prop :=
  ∀ (s : State) (n : Nat) (rest : List Turn),
    s.inBuffer = false → n ≤ s.cmdq.length → s.agenda = List.replicate n .execute ++ rest →
      runWords (s.cmdq.take n) { s with agenda := rest, cmdq := s.cmdq.drop n } = .next (run n s)

/-- Cutting a buffer in two, with no command run in the gap, changes nothing: the state depends on the
`TICK`s and on where the commands fell, not on the buffer sizes (44_render_system.md R304; the moves are
read from the model's field `agenda`: notes/assumptions/2.md). -/
def Obligations.BufferSizesAreInvisible : Prop :=
  ∀ (s : State) (ts us : List EventCode) (stop start : EventCode) (rest : List Turn),
    s.inBuffer = true → (∀ e ∈ ts ++ us, evtField e = 2) → evtField stop = 3 → evtField start = 1 →
    s.agenda = ts.map .event ++ [.event stop, .event start] ++ us.map .event ++ rest →
      run (ts.length + us.length + 2) s =
        run (ts.length + us.length) { s with agenda := (ts ++ us).map .event ++ rest }

/-- `NOP`, `BUF_START` and `BUF_END` complete in every state with the effect the rules give, and an event
out of protocol, a `TICK` too, is refused without any effect (44_render_system.md R301, R303, R306, R307). -/
def Obligations.SystemInstructions : Prop :=
  ∀ s : State, exec .nop s = .next s ∧
    exec .bufStart s = .next (if s.inBuffer = false then { s with inBuffer := true } else s) ∧
    exec .bufEnd s = .next (if s.inBuffer = true then { s with inBuffer := false } else s) ∧
    ∀ e n, s.inBuffer = false → exec (.tick e n) s = .next s

/-! ### The whole machine -/

/-- Nothing stops the block: every instruction in every state, and every step, answers a next state, and the
parameters of the machine, the ROM among them, stand (60_exceptions.md R340, 10_state.md R49,
20_memory.md R73). -/
def Obligations.NothingStops : Prop :=
  (∀ (i : Instr) (s : State), ∃ t, exec i s = .next t ∧ t.cfg = s.cfg) ∧
  ∀ s : State, StepSafe s ∧ ∀ t, step s = .next t → t.cfg = s.cfg

/-- For parameters in the ranges of 00_scope.md R8, every register is in its legal set at reset
(10_state.md R23 to R42, R50). -/
def Obligations.ResetIsLegal : Prop := ∀ c : Config, c.wf = true → (State.resetOf c).Legal

/-- Every step keeps every register in its legal set: phases in [0, 1), f32 registers finite and in range,
the envelope at or above `MIN_ENV_LEVEL`, the queue within its capacity (10_state.md R23 to R46). -/
def Obligations.LegalIsKept : Prop := ∀ s t : State, s.Legal → step s = .next t → t.Legal

/-- Within a buffer the parameter registers are a fixed snapshot and no word leaves `CMDQ`, over any number
of steps and whatever the ports do short of `BUF_END` and reset (20_memory.md R80, 10_state.md R22). -/
def Obligations.BufferIsASnapshot : Prop :=
  ∀ (n : Nat) (s : State), s.inBuffer = true → (∀ t ∈ s.agenda.take n, t.endsBuffer = false) →
    (run n s).inBuffer = true ∧ (run n s).params = s.params ∧ ∃ ws, (run n s).cmdq = s.cmdq ++ ws

/-- What a command leaves alone: the filter integrators, the envelope, the Gate, the queue, the phase of the
block, the records; phases but those that `RESYNC`, `OSC_SHAPE`, `LFO_SHAPE` zero; the note but for
`NOTE_ON`, `NOTE_OFF` (10_state.md R22, R24, R28, R30, R33, R34, R40, R42, 60_exceptions.md R360). -/
def Obligations.CommandsKeepRunningState : Prop :=
  ∀ (i : Instr) (s t : State), i.isCommand = true → exec i s = .next t →
    t.running = s.running ∧ t.inBuffer = s.inBuffer ∧ t.cmdq = s.cmdq ∧ t.ctrlIn = s.ctrlIn ∧
    t.agenda = s.agenda ∧ t.cfg = s.cfg ∧ t.draws = s.draws ∧ t.out = s.out ∧
    (∀ k : Fin 4, t.slots[k].ph = s.slots[k].ph ∨
      t.slots[k].ph = zeroPhases ∧ (i = .resync ∨ ∃ idx c, i = .oscShape idx c ∧ idx.toNat = k.val)) ∧
    (∀ k : Fin 8, t.lfos[k].ph = s.lfos[k].ph ∨
      t.lfos[k].ph = zeroPhases ∧ ∃ idx c, i = .lfoShape idx c ∧ idx.toNat = k.val) ∧
    ((t.curNote = s.curNote ∧ t.noteState = s.noteState) ∨ (∃ n, i = .noteOn n) ∨
      ∃ n, i = .noteOff n ∧ t.curNote = s.curNote)

/-- Only an accepted `TICK` answers with a record, and it answers with exactly one (44_render_system.md R300,
R305, R311). That reset keeps the records already answered is the model's choice (notes/assumptions/15.md). -/
def Obligations.OnlyTickAnswers : Prop :=
  (∀ s t : State, step s = .next t → t.out = s.out ∨
    ∃ e rest r, s.inBuffer = true ∧ s.agenda = .event e :: rest ∧ evtField e = 2 ∧ t.out = s.out ++ [r]) ∧
  ∀ (s : State) (e : EventCode) (rest : List Turn),
    s.inBuffer = true → s.agenda = .event e :: rest → evtField e = 2 →
      ∃ t r, step s = .next t ∧ t.out = s.out ++ [r] ∧ t.inBuffer = true

/-- Right after reset, with no command sent and no note event (the reserved `NOTE_EV` is none, 30_encoding.md
R107), every `TICK` in a buffer yields the silent
record and changes no running state, for every choice of the parameters (70_reset_and_hazards.md R381). -/
def Obligations.SilentAfterReset : Prop :=
  ∀ (c : Config) (es : List EventCode) (rest : List Turn),
    c.wf = true → (∀ e ∈ es, evtField e = 2 ∧ (noteEvField e = 0 ∨ noteEvField e = 3)) →
      run es.length { State.resetOf c with inBuffer := true, agenda := es.map .event ++ rest } =
        { State.resetOf c with
            inBuffer := true, agenda := rest,
            out := List.replicate es.length
              { sig := F32.zero, amp := .stopped, noteAdvance := false, lfoPan := none, lfoTrem := none,
                lfoPhaser := none, lfoFlt := none, oscMod := Vector.replicate 4 none, mix := F32.zero,
                y := Vector.replicate 4 F32.zero } }

/-! ### Commands: encoding, result and frame -/

/-- `OSC_SHAPE` and `OSC_INTERVAL` (40_oscillator.md R132, R135): the encoding, the registers of the one slot
they write, and nothing else. Codes 10 to 15 store Sine; the phases are zeroed on every execution. -/
def Obligations.OscShapeAndInterval : Prop :=
  ∀ (s : State) (idx : BitVec 8) (rsv : BitVec 16) (p : BitVec 32) (hi : idx.toNat < 4),
    let put := fun x : Slot => { s with slots := s.slots.set idx.toNat x }
    (let c := p.extractLsb' 0 4;
      decodeCommand (0x10#8 ++ idx ++ rsv ++ p) = .oscShape idx c ∧
      ∃ sh, codeOf sh = (if c ≤ 9 then c else 0) ∧
        exec (.oscShape idx c) s =
          .next (put { s.slots[idx.toNat] with shape := sh, ph := Vector.replicate 7 F32.zero })) ∧
    decodeCommand (0x13#8 ++ idx ++ rsv ++ p) = .oscInterval idx p ∧
    exec (.oscInterval idx p) s = .next (put { s.slots[idx.toNat] with interval := p })

/-- `OSC_LEVEL`, `OSC_SHAPER`, `OSC_PARAM0`, `OSC_PARAM1` with a finite payload (40_oscillator.md R133, R134,
R136, R137): the encoding, the one register each writes, legalised, and nothing else. -/
def Obligations.OscF32Registers : Prop :=
  ∀ (s : State) (idx : BitVec 8) (rsv : BitVec 16) (v : F32) (hi : idx.toNat < 4), v.isFinite = true →
    let put := fun x : Slot => { s with slots := s.slots.set idx.toNat x }
    decodeCommand (0x11#8 ++ idx ++ rsv ++ v.bits) = .oscLevel idx v ∧
    exec (.oscLevel idx v) s =
      .next (put { s.slots[idx.toNat] with level := if v.lt F32.zero then F32.zero else v }) ∧
    decodeCommand (0x12#8 ++ idx ++ rsv ++ v.bits) = .oscShaper idx v ∧
    exec (.oscShaper idx v) s =
      .next (put { s.slots[idx.toNat] with shaper := v.clamp F32.zero ⟨0x3F666666⟩ }) ∧
    decodeCommand (0x14#8 ++ idx ++ rsv ++ v.bits) = .oscParam0 idx v ∧
    exec (.oscParam0 idx v) s = .next (put { s.slots[idx.toNat] with p0 := v }) ∧
    decodeCommand (0x15#8 ++ idx ++ rsv ++ v.bits) = .oscParam1 idx v ∧
    exec (.oscParam1 idx v) s = .next (put { s.slots[idx.toNat] with p1 := v })

/-- `UNISON_EN`, `UNISON_SPREAD`, `CONST_LEVEL`, `RESYNC` (40_oscillator.md R138 to R141): the encoding, the
register each writes (`RESYNC`: the 28 slot phases, not those of the LFOs), and nothing else. -/
def Obligations.BankWideCommands : Prop :=
  ∀ (s : State) (idx : BitVec 8) (rsv : BitVec 16) (p : BitVec 32),
    decodeCommand (0x16#8 ++ idx ++ rsv ++ p) = .unisonEn (p.getLsbD 0) ∧
    exec (.unisonEn (p.getLsbD 0)) s = .next { s with unisonEn := p.getLsbD 0 } ∧
    decodeCommand (0x17#8 ++ idx ++ rsv ++ p) = .unisonSpread ⟨p⟩ ∧
    exec (.unisonSpread ⟨p⟩) s =
      .next (if F32.isFinite ⟨p⟩ then { s with unisonSpread := ⟨p⟩ } else s) ∧
    decodeCommand (0x18#8 ++ idx ++ rsv ++ p) = .constLevel (p.getLsbD 0) ∧
    exec (.constLevel (p.getLsbD 0)) s = .next { s with constLevel := p.getLsbD 0 } ∧
    decodeCommand (0x01#8 ++ idx ++ rsv ++ p) = .resync ∧
    exec .resync s =
      .next { s with slots := s.slots.map fun sl => { sl with ph := Vector.replicate 7 F32.zero } }

/-- `AMP_MODE`, and with a finite payload `OUTPUT_LEVEL`, `ENV_SUSTAIN_LVL`, `GATE_DUTY`
(41_envelope_gate.md R191, R192, R197, R198): the encoding, the one register each writes, legalised, and
nothing else. -/
def Obligations.AmpRegisters : Prop :=
  ∀ (s : State) (idx : BitVec 8) (rsv : BitVec 16) (p : BitVec 32),
    decodeCommand (0x20#8 ++ idx ++ rsv ++ p) = .ampMode (p.getLsbD 0) ∧
    exec (.ampMode (p.getLsbD 0)) s =
      .next { s with ampMode := if p.getLsbD 0 then .envelope else .gate } ∧
    ∀ v : F32, v.isFinite = true →
      decodeCommand (0x21#8 ++ idx ++ rsv ++ v.bits) = .outputLevel v ∧
      exec (.outputLevel v) s =
        .next { s with outputLevel := if v.lt s.cfg.minEnvLevel then s.cfg.minEnvLevel else v } ∧
      decodeCommand (0x26#8 ++ idx ++ rsv ++ v.bits) = .envSustainLvl v ∧
      exec (.envSustainLvl v) s = .next { s with sustainDb := if v.lt F32.zero then F32.zero else v } ∧
      decodeCommand (0x27#8 ++ idx ++ rsv ++ v.bits) = .gateDuty v ∧
      exec (.gateDuty v) s = .next { s with gateDuty := v.clamp F32.zero ⟨0x3F666666⟩ }

/-- `ENV_ATTACK`, `ENV_DECAY`, `ENV_RELEASE`, `ENV_SUSTAIN_LEN`, `GATE_NOTE_LEN` (41_envelope_gate.md R193 to
R196, R199): the encoding, the one register each writes, a negative duration stored as 0, and nothing else. -/
def Obligations.DurationRegisters : Prop :=
  ∀ (s : State) (idx : BitVec 8) (rsv : BitVec 16) (ms : BitVec 32),
    let kept : Word32 := if ms.toInt < 0 then 0 else ms
    decodeCommand (0x22#8 ++ idx ++ rsv ++ ms) = .envAttack ms ∧
    exec (.envAttack ms) s = .next { s with attackMs := kept } ∧
    decodeCommand (0x23#8 ++ idx ++ rsv ++ ms) = .envDecay ms ∧
    exec (.envDecay ms) s = .next { s with decayMs := kept } ∧
    decodeCommand (0x24#8 ++ idx ++ rsv ++ ms) = .envRelease ms ∧
    exec (.envRelease ms) s = .next { s with releaseMs := kept } ∧
    decodeCommand (0x25#8 ++ idx ++ rsv ++ ms) = .envSustainLen ms ∧
    exec (.envSustainLen ms) s = .next { s with sustainMs := kept } ∧
    decodeCommand (0x28#8 ++ idx ++ rsv ++ ms) = .gateNoteLen ms ∧
    exec (.gateNoteLen ms) s = .next { s with gateLenMs := kept }

/-- `NOTE_ON` and `NOTE_OFF` (41_envelope_gate.md R200, R201, R205, R206): the encoding, the note and its
state, and nothing else. Numbers 129 to 255 are the rest sentinel; a note-off for another note is ignored. -/
def Obligations.NoteCommands : Prop :=
  ∀ (s : State) (idx : BitVec 8) (rsv : BitVec 16) (p : BitVec 32),
    let n := p.extractLsb' 0 8
    decodeCommand (0x2A#8 ++ idx ++ rsv ++ p) = .noteOn n ∧
    exec (.noteOn n) s = .next { s with
      curNote := if n.toNat < 128 then n else 128,
      noteState := if n.toNat < 128 then .noteOn else .rest } ∧
    decodeCommand (0x2B#8 ++ idx ++ rsv ++ p) = .noteOff n ∧
    exec (.noteOff n) s = .next
      (if n = s.curNote ∧ (s.noteState = .noteOn ∨ s.noteState = .noteHold) then
        { s with noteState := .noteOff }
      else s)

/-- `FLT_CUTOFF`, `FLT_RESONANCE` with a finite payload, and `FLT_POLES` (42_filter.md R241 to R243): the
encoding, the one register each writes, and nothing else: the integrators are not cleared. -/
def Obligations.FilterRegisters : Prop :=
  ∀ (s : State) (idx : BitVec 8) (rsv : BitVec 16),
    (∀ v : F32, v.isFinite = true →
      decodeCommand (0x30#8 ++ idx ++ rsv ++ v.bits) = .fltCutoff v ∧
      exec (.fltCutoff v) s = .next { s with fltCutoff := if v.lt F32.zero then F32.zero else v } ∧
      decodeCommand (0x31#8 ++ idx ++ rsv ++ v.bits) = .fltResonance v ∧
      exec (.fltResonance v) s = .next { s with fltQ := v.clamp F32.zero F32.one }) ∧
    (∀ p : BitVec 32, decodeCommand (0x32#8 ++ idx ++ rsv ++ p) = .fltPoles p ∧
      (∀ k : Poles, p.toNat = k.count → exec (.fltPoles p) s = .next { s with fltPoles := k }) ∧
      (p ≠ 1 → p ≠ 2 → p ≠ 3 → exec (.fltPoles p) s = .next s))

/-- `LFO_ENABLE`, `LFO_SHAPE`, and with a finite payload `LFO_FREQ`, `LFO_CENTER`, `LFO_WIDTH` (43_lfo.md
R271 to R275): the encoding, the registers of the one LFO they write, and nothing else. -/
def Obligations.LfoRegisters : Prop :=
  ∀ (s : State) (idx : BitVec 8) (rsv : BitVec 16) (p : BitVec 32) (hi : idx.toNat < 8),
    let put := fun x : Lfo => { s with lfos := s.lfos.set idx.toNat x }
    decodeCommand (0x40#8 ++ idx ++ rsv ++ p) = .lfoEnable idx (p.getLsbD 0) ∧
    exec (.lfoEnable idx (p.getLsbD 0)) s = .next (put { s.lfos[idx.toNat] with en := p.getLsbD 0 }) ∧
    (let c := p.extractLsb' 0 4;
      decodeCommand (0x44#8 ++ idx ++ rsv ++ p) = .lfoShape idx c ∧
      ∃ sh, codeOf sh = (if c ≤ 9 then c else 0) ∧
        exec (.lfoShape idx c) s =
          .next (put { s.lfos[idx.toNat] with shape := sh, ph := Vector.replicate 7 F32.zero })) ∧
    ∀ v : F32, v.isFinite = true →
      decodeCommand (0x41#8 ++ idx ++ rsv ++ v.bits) = .lfoFreq idx v ∧
      exec (.lfoFreq idx v) s =
        .next (put { s.lfos[idx.toNat] with freq := if v.lt F32.zero then F32.zero else v }) ∧
      decodeCommand (0x42#8 ++ idx ++ rsv ++ v.bits) = .lfoCenter idx v ∧
      exec (.lfoCenter idx v) s = .next (put { s.lfos[idx.toNat] with center := v }) ∧
      decodeCommand (0x43#8 ++ idx ++ rsv ++ v.bits) = .lfoWidth idx v ∧
      exec (.lfoWidth idx v) s = .next (put { s.lfos[idx.toNat] with width := v })

/-! ### A frame -/

/-- An accepted `TICK` runs the units in the fixed order, each on the state left by the one before, the
amplitude unit last: the ADSR tick, with `NOTE_ADVANCE` 0, or the Gate tick, by `AMP_MODE`. It answers with
the record of their values (44_render_system.md R305, R310, R311, 41_envelope_gate.md R208, R209). -/
def Obligations.TickPipeline : Prop :=
  ∀ (s : State) (e : BitVec 2) (n : BitVec 8), s.inBuffer = true →
    ∃ (s1 : State) (m0 m1 m2 m3 v2 pan trem phs : Option F32 × State) (y0 y1 y2 y3 mix flt : F32 × State)
      (amp : (AmpOut × Bool) × State),
      s1 = (if e = 1 then noteOnOp n s else if e = 2 then noteOffOp n s else s) ∧
      m0 = consult 4 s1 ∧ m1 = consult 5 m0.2 ∧ m2 = consult 6 m1.2 ∧ m3 = consult 7 m2.2 ∧
      y0 = slotTick 0 m0.1 m3.2 ∧ y1 = slotTick 1 m1.1 y0.2 ∧ y2 = slotTick 2 m2.1 y1.2 ∧
      y3 = slotTick 3 m3.1 y2.2 ∧ mix = mixer #v[y0.1, y1.1, y2.1, y3.1] y3.2 ∧
      v2 = consult 2 mix.2 ∧ flt = filterTick mix.1 v2.1 v2.2 ∧
      pan = consult 0 flt.2 ∧ trem = consult 1 pan.2 ∧ phs = consult 3 trem.2 ∧
      amp = (match s.ampMode with
        | .envelope => (((adsrTick phs.2).1, false), (adsrTick phs.2).2)
        | .gate => gateTick phs.2) ∧
      exec (.tick e n) s = .next { amp.2 with
        out := amp.2.out ++
          [{ sig := flt.1, amp := amp.1.1, noteAdvance := amp.1.2, lfoPan := pan.1, lfoTrem := trem.1,
             lfoPhaser := phs.1, lfoFlt := v2.1, oscMod := #v[m0.1, m1.1, m2.1, m3.1], mix := mix.1,
             y := #v[y0.1, y1.1, y2.1, y3.1] }] }

/-- What a `TICK` leaves alone: every parameter register, the front end, the note but for its sideband, and
the amplitude machine that is not selected (10_state.md R22, 20_memory.md R80, 41_envelope_gate.md R207,
R208, 60_exceptions.md R360). -/
def Obligations.TickFrame : Prop :=
  ∀ (s t : State) (e : BitVec 2) (n : BitVec 8), exec (.tick e n) s = .next t →
    t.params = s.params ∧ t.cfg = s.cfg ∧ t.inBuffer = s.inBuffer ∧ t.cmdq = s.cmdq ∧
    t.ctrlIn = s.ctrlIn ∧ t.agenda = s.agenda ∧
    (s.inBuffer = true → t.curNote = (noteSideband e n s).curNote) ∧
    (s.ampMode = .envelope → t.gateState = s.gateState ∧ t.gateOnCnt = s.gateOnCnt ∧
      t.gateOffCnt = s.gateOffCnt) ∧
    (s.ampMode = .gate → t.envLevel = s.envLevel ∧ t.envStage = s.envStage ∧ t.envExt = s.envExt ∧
      t.susCnt = s.susCnt ∧ (s.inBuffer = true → t.noteState = (noteSideband e n s).noteState))

/-- The amplitude unit shares no state with the other units: a frame's amplitude output, its `NOTE_ADVANCE`
and the unit's next state depend on the unit's own state and on the note event alone
(44_render_system.md R310, 41_envelope_gate.md R208). -/
def Obligations.AmpUnitIsIsolated : Prop :=
  ∀ (s u t v : State) (e : BitVec 2) (n : BitVec 8),
    s.inBuffer = true → u.inBuffer = true → s.ampPart = u.ampPart →
    exec (.tick e n) s = .next t → exec (.tick e n) u = .next v →
      t.ampPart = v.ampPart ∧ ∃ r q, t.out = s.out ++ [r] ∧ v.out = u.out ++ [q] ∧
        r.amp = q.amp ∧ r.noteAdvance = q.noteAdvance

/-! ### Arithmetic -/

/-- `+`, `-`, `×`, `/` on finite values are rounded once, to nearest with ties to even: no finite value `c` is
nearer to the exact result than a finite result is, one as near and different leaves the result even, and
the result is an infinity, of the exact result's sign, exactly from half a unit beyond the largest finite
value on (00_scope.md R12). `units` is the exact value in units of 2^-149, `oneUnits` is 1 in those units. -/
def Obligations.ArithmeticIsNearest : Prop :=
  ∀ a b : F32, a.isFinite = true → b.isFinite = true →
    let nearest : F32 → Int → Int → Prop := fun r num den =>
      r.isNaN = false ∧
      (r.isFinite = true → ∀ c : F32, c.isFinite = true →
        (num - r.units * den).natAbs ≤ (num - c.units * den).natAbs ∧
        ((num - r.units * den).natAbs = (num - c.units * den).natAbs → c.units ≠ r.units →
          r.bits.toNat % 2 = 0)) ∧
      (r.isInf = true ↔ (2 ^ 277 - 2 ^ 252) * den.natAbs ≤ num.natAbs) ∧
      (r.isInf = true → (r.sign = true ↔ num * den < 0))
    nearest (a.add b) (a.units + b.units) 1 ∧
    nearest (a.sub b) (a.units - b.units) 1 ∧
    nearest (a.mul b) (a.units * b.units) F32.oneUnits ∧
    (b.isZero = false → nearest (a.div b) (a.units * F32.oneUnits) b.units)

/-- The special values (00_scope.md R12): `x / 0` is an infinity for a finite non-zero `x` and NaN for a zero;
a NaN operand gives a NaN and makes every comparison false; the two zeros are equal; away from NaN the
comparisons are those of the values, an infinity beyond every finite one; `|a|` clears the sign bit. The
results of infinities and the signs of `x / 0` are IEEE 754's, which R12 names (notes/assumptions/17.md);
which of two unlike zeros `min` and `max` return is free (notes/assumptions/10.md). -/
def Obligations.ArithmeticSpecials : Prop :=
  ∀ a b : F32,
    let opposed := a.sign != b.sign
    (a.isNaN = true ∨ b.isNaN = true → (a.add b).isNaN = true ∧ (a.sub b).isNaN = true ∧
      (a.mul b).isNaN = true ∧ (a.div b).isNaN = true ∧
      a.lt b = false ∧ a.le b = false ∧ a.feq b = false) ∧
    (a.isNaN = false → b.isNaN = false →
      (a.lt b = true ↔ a.units < b.units) ∧ (a.le b = true ↔ a.units ≤ b.units) ∧
      (a.feq b = true ↔ a = b ∨ a.isZero = true ∧ b.isZero = true) ∧
      (a.isInf = true → b.isFinite = true → if a.sign = true then a.lt b = true else b.lt a = true) ∧
      (b.isZero = true → if a.isZero = true then (a.div b).isNaN = true else a.div b = F32.inf opposed) ∧
      (a.isInf = true →
        (a.add b).isNaN = (b.isInf && opposed) ∧ (a.sub b).isNaN = (b.isInf && !opposed) ∧
        (a.mul b).isNaN = b.isZero ∧ (a.div b).isNaN = b.isInf ∧
        ((a.add b).isNaN = false → a.add b = a) ∧ ((a.sub b).isNaN = false → a.sub b = a) ∧
        (b.isZero = false → a.mul b = F32.inf opposed) ∧ (b.isInf = false → a.div b = F32.inf opposed)) ∧
      (a.isFinite = true → b.isInf = true →
        a.add b = b ∧ a.sub b = b.neg ∧ (a.div b).isZero = true ∧
        if a.isZero = true then (a.mul b).isNaN = true else a.mul b = F32.inf opposed) ∧
      (a.min b = a ∨ a.min b = b) ∧ (a.min b).le a = true ∧ (a.min b).le b = true ∧
      (a.max b = a ∨ a.max b = b) ∧ a.le (a.max b) = true ∧ b.le (a.max b) = true) ∧
    a.abs.bits = a.bits &&& 0x7FFFFFFF ∧ a.neg.bits = a.bits ^^^ 0x80000000

/-- `floor(a)` is the largest integral f32 not above `a`, exactly (00_scope.md R12). -/
def Obligations.FloorIsExact : Prop :=
  ∀ a : F32, a.isFinite = true →
    a.floor.isFinite = true ∧ (F32.oneUnits : Int) ∣ a.floor.units ∧
    a.floor.units ≤ a.units ∧ a.units < a.floor.units + F32.oneUnits

/-- `wrap` brings every value into [0, 1), by the rule's formula, a value that is not finite to 0.0, and leaves
a phase where it is (00_scope.md R16). -/
def Obligations.WrapIntoUnit : Prop :=
  (∀ v : F32, inUnit v.wrap = true) ∧
  (∀ v : F32, v.wrap =
    let r := v.sub v.floor
    if v.isFinite = false then F32.zero
    else if F32.one.le r = true ∨ r.lt F32.zero = true then F32.zero else r) ∧
  ∀ p : F32, inUnit p = true → p.wrap.feq p = true

/-- The laws of the numerics record: bounds and exact points of `sin2pi`, positivity, `db2lin(0) = 1` and
monotonicity of `db2lin`, and the constant π (00_scope.md R15). -/
def Obligations.NumericsAreLawful : Prop :=
  (∀ p : F32, inUnit p = true → (sin2pi p).abs.le F32.one = true) ∧
  (sin2pi ⟨0x00000000⟩).feq F32.zero = true ∧ sin2pi ⟨0x3E800000⟩ = F32.one ∧
  (sin2pi ⟨0x3F000000⟩).feq F32.zero = true ∧ sin2pi ⟨0x3F400000⟩ = F32.negOne ∧ F32.pi = ⟨0x40490FDB⟩ ∧
  (∀ d : F32, d.isFinite = true → F32.zero.lt (db2lin d) = true) ∧ db2lin ⟨0x00000000⟩ = F32.one ∧
  ∀ d e : F32, d.isFinite = true → e.isFinite = true → d.le e = true → (db2lin d).le (db2lin e) = true

/-- The conversions of 00_scope.md R13: `f32_of_i32`, and 41_envelope_gate.md R213's `f32_of_u32`, is a nearest
f32 with ties to even; `finite` is neither NaN nor infinity; `round_u32` is 0 for a NaN or `v ≤ 0`, saturates
from 4294967295 on, and is else the nearest integer, a tie going up. Milliseconds become samples by the
formula of R14 in the order written, a duration up to 0 becomes 0 samples, and at 44100 Hz 100 ms are 4410. -/
def Obligations.ConversionsRound : Prop :=
  (let nearest : Int → F32 → Prop := fun n r =>
      r.isFinite = true ∧ ∀ c : F32, c.isFinite = true →
        (n * F32.oneUnits - r.units).natAbs ≤ (n * F32.oneUnits - c.units).natAbs ∧
        ((n * F32.oneUnits - r.units).natAbs = (n * F32.oneUnits - c.units).natAbs →
          c.units ≠ r.units → r.bits.toNat % 2 = 0)
    ∀ n : Word32, nearest n.toInt (F32.ofI32 n) ∧ nearest n.toNat (F32.ofU32 n)) ∧
  (∀ v : F32, (v.isFinite = true ↔ v.isNaN = false ∧ v.isInf = false) ∧
    if v.isNaN = true ∨ v.le F32.zero = true then v.roundU32 = 0
    else if (4294967295 * F32.oneUnits : Int) ≤ v.units then v.roundU32 = 0xFFFFFFFF
    else 2 * (v.roundU32.toNat : Int) * F32.oneUnits ≤ 2 * v.units + F32.oneUnits ∧
      2 * v.units + F32.oneUnits < 2 * ((v.roundU32.toNat : Int) + 1) * F32.oneUnits) ∧
  (∀ (c : Config) (t : F32), samplesF c t = ((c.sampleRate.div ⟨0x447A0000⟩).mul t).roundU32) ∧
  (∀ (c : Config) (ms : Word32),
    samples c ms = ((c.sampleRate.div ⟨0x447A0000⟩).mul (F32.ofI32 ms)).roundU32 ∧
    (c.wf = true → ms.toInt ≤ 0 → samples c ms = 0)) ∧
  samples Config.default 100 = 4410

/-- A value a rule stores stands, unless it is a NaN: then it is a quiet NaN whose sign and payload are the
next draw (00_scope.md R12; that the draw is made where a value is stored is notes/assumptions/6.md). -/
def Obligations.StoredNaNIsQuiet : Prop :=
  ∀ (v : F32) (n : Nat),
    if v.isNaN = true then
      (drawNaN v n).val.isNaN = true ∧ (drawNaN v n).val.bits.getLsbD 22 = true ∧
      (drawNaN v n).val.bits.getLsbD 31 = (Config.nanBits n).getLsbD 22 ∧
      (drawNaN v n).val.bits.extractLsb' 0 22 = (Config.nanBits n).extractLsb' 0 22 ∧
      (drawNaN v n).draws = n + 1
    else (drawNaN v n).val = v ∧ (drawNaN v n).draws = n

/-- The contents of `NOTE_FREQ`: 128 entries, each the binary32 nearest to 440 × 2^((k - 69)/12). With the
entry's value u and the step d between neighbouring values, both in units of 2^-149, that says
(u - d/2)^12 ≤ (440 × 2^149)^12 × 2^(k - 69) ≤ (u + d/2)^12 (20_memory.md R70, R71). -/
def Obligations.RomIsEqualTempered : Prop :=
  Config.default.noteFreq.length = 128 ∧
  ∀ k : Fin 128,
    let x := Config.default.romRead k.val
    let d := 2 ^ (x.expo - 1)
    (2 * x.mag - d) ^ 12 * 2 ^ 69 ≤ (880 * F32.oneUnits) ^ 12 * 2 ^ k.val ∧
    (880 * F32.oneUnits) ^ 12 * 2 ^ k.val ≤ (2 * x.mag + d) ^ 12 * 2 ^ 69

/-! ### Oscillator bank -/

/-- The saturator: amount 0 is the identity on every finite value; ±1 goes to ±1 and 0 to 0 exactly; the
function is odd on [-1, 1] (40_oscillator.md R148). -/
def Obligations.SaturatorEnds : Prop :=
  (∀ x : F32, x.isFinite = true → sat F32.zero x = x) ∧
  ∀ a : F32, F32.zero.le a = true → a.le F32.pointNine = true →
    sat a F32.one = F32.one ∧ sat a F32.negOne = F32.negOne ∧ (sat a F32.zero).feq F32.zero = true ∧
    ∀ x : F32, x.abs.le F32.one = true → sat a x.neg = (sat a x).neg

/-- Every wave shape returns a value in [-1, 1] from phases in [0, 1), for every frequency, modulation and
ratio and every finite depth (40_oscillator.md R152 to R161, R163, 70_reset_and_hazards.md R392). -/
def Obligations.WavesAreBounded : Prop :=
  ∀ (c : Config) (sh : Shape) (ph : Vector F32 7) (f : F32) (m : Option F32) (p0 p1 : F32) (n : Nat),
    (∀ k : Fin 7, inUnit ph[k] = true) → p1.isFinite = true →
      (wave c sh ph f m p0 p1 n).w.abs.le F32.one = true

/-- The value of each shape at the present phase and the phases it advances; the phases a shape does not use
stand (40_oscillator.md R150 to R161). `advance p i` is `wrap(p + i)`. -/
def Obligations.WaveRules : Prop :=
  ∀ (c : Config) (ph : Vector F32 7) (f : F32) (m : Option F32) (p0 p1 : F32) (n : Nat),
    let W := fun sh => wave c sh ph f m p0 p1 n
    let p := ph[0]
    let mm := m.getD F32.one
    let moved := ph.set 0 ((p.add ((f.mul mm).div c.sampleRate)).wrap)
    let plain := ph.set 0 ((p.add (f.div c.sampleRate)).wrap)
    let duet := plain.set 1 ((ph[1].add ((f.mul (p0.mul mm)).div c.sampleRate)).wrap)
    W .sine = ⟨sin2pi p, moved, n⟩ ∧
    W .square = ⟨if p.lt F32.half then F32.one else F32.negOne, moved, n⟩ ∧
    W .saw = ⟨F32.one.sub (F32.two.mul p), moved, n⟩ ∧
    W .ramp = ⟨(F32.two.mul p).sub F32.one, moved, n⟩ ∧
    W .triangle = ⟨if p.lt F32.quarter then F32.four.mul p
      else if p.lt F32.threeQuarters then F32.two.sub (F32.four.mul p)
      else (F32.four.mul p).sub F32.four, moved, n⟩ ∧
    W .pulse = ⟨if p.lt ((p0.add (m.getD F32.zero)).clamp F32.zero F32.one) then F32.one else F32.negOne,
      plain, n⟩ ∧
    W .noise = ⟨noiseDraw n, ph, n + 1⟩ ∧
    (F32.negOne.le (noiseDraw n) = true ∧ (noiseDraw n).le F32.one = true) ∧
    W .fm = ⟨sin2pi ((p.add (p1.mul (sin2pi ph[1]))).wrap), duet, n⟩ ∧
    W .am = ⟨(sin2pi p).mul ((F32.one.add (p1.mul (sin2pi ph[1]))).div (F32.one.add p1.abs)), duet, n⟩ ∧
    (W .superSaw).w =
      (ph.toList.foldl (fun acc q => acc.add (F32.one.sub (F32.two.mul q))) F32.zero).div F32.seven ∧
    (W .superSaw).draws = n ∧
    ∀ k : Fin 7, (W .superSaw).ph[k] = (ph[k].add (((f.mul mm).mul (F32.one.add
      ((c.ssDetune.mul (F32.ofInt ((k.val : Int) - 3))).div F32.three))).div c.sampleRate)).wrap

/-- The slot's frequency: a rest is 0 Hz under every interval, the sum is exact and never aliases into the
table, outside the table it is 0 Hz, else the ROM's entry (40_oscillator.md R144); unison scales the
frequency of a slot whose sign is not 0, when enabled, and of no other (R145). -/
def Obligations.SlotFrequency : Prop :=
  ∀ (i : Fin 4) (s : State),
    (let k : Int := (s.curNote.toNat : Int) + s.slots[i].interval.toInt
      if 128 ≤ s.curNote.toNat then noteFreq i s = F32.zero
      else if k < 0 ∨ 127 < k then noteFreq i s = F32.zero
      else ∀ x, s.cfg.noteFreq[k.toNat]? = some x → noteFreq i s = x) ∧
    ∀ f0 : F32, unison i f0 s =
      if s.unisonEn = true then
        match s.cfg.unisonSign[i] with
        | .minus => f0.mul (F32.one.add (F32.negOne.mul (s.unisonSpread.div F32.two)))
        | .zero => f0
        | .plus => f0.mul (F32.one.add (F32.one.mul (s.unisonSpread.div F32.two)))
      else f0

/-- A slot with level 0 or frequency 0 gives 0.0 and changes nothing; any other gives its level times the
saturated wave and moves its own phases alone (40_oscillator.md R142, R146, R147). -/
def Obligations.SlotTickRule : Prop :=
  ∀ (i : Fin 4) (m : Option F32) (s : State),
    let sl := s.slots[i]
    let f := unison i (noteFreq i s) s
    if sl.level.feq F32.zero = true ∨ f.feq F32.zero = true then slotTick i m s = (F32.zero, s)
    else
      let o := wave s.cfg sl.shape sl.ph f m sl.p0 sl.p1 s.draws
      StoredAs (sl.level.mul (sat sl.shaper o.w)) (slotTick i m s).1 ∧
      ∃ d, (slotTick i m s).2 = { s with slots := s.slots.set i { sl with ph := o.ph }, draws := d }

/-- A rest silences all four slots, freezes their phases and takes no draw, and the mix is 0.0
(40_oscillator.md R144, R146, R162, R163). -/
def Obligations.RestSilencesSlots : Prop :=
  ∀ (s : State) (m : Vector (Option F32) 4), 128 ≤ s.curNote.toNat → s.unisonSpread.isFinite = true →
    slotTicks m s = (Vector.replicate 4 F32.zero, s) ∧
    mixer (Vector.replicate 4 F32.zero) s = (F32.zero, s)

/-- The mix (40_oscillator.md R162): the sum over 4, or over the sum of the levels, in the order written. -/
def Obligations.MixerRule : Prop :=
  ∀ (y : Vector F32 4) (s : State),
    let sum := ((y[0].add y[1]).add y[2]).add y[3]
    let levels := ((s.slots[0].level.add s.slots[1].level).add s.slots[2].level).add s.slots[3].level
    (∃ d, (mixer y s).2 = { s with draws := d }) ∧
    if s.constLevel = false then StoredAs (sum.div F32.four) (mixer y s).1
    else if F32.zero.lt levels = true then StoredAs (sum.div levels) (mixer y s).1
    else (mixer y s).1 = F32.zero

/-! ### LFO bank and filter -/

/-- `Consult(i)`: an LFO that is not needed gives `None` and does not move; one that is gives
`CENTER + ((w × WIDTH) / 2.0)` and moves its own phases alone (43_lfo.md R280, R281, R282). -/
def Obligations.ConsultationRule : Prop :=
  ∀ (i : Fin 8) (s : State),
    let l := s.lfos[i]
    if l.en = true ∧ (i.val < 4 ∨ l.width.feq F32.zero = false) then
      let o := wave s.cfg l.shape l.ph l.freq none F32.half F32.zero s.draws
      ∃ v d, StoredAs (l.center.add ((o.w.mul l.width).div F32.two)) v ∧
        consult i s = (some v, { s with lfos := s.lfos.set i { l with ph := o.ph }, draws := d })
    else consult i s = (none, s)

/-- Two LFOs of one kind with equal registers and phases still have them after a frame (43_lfo.md R285). -/
def Obligations.EqualLfosStayEqual : Prop :=
  ∀ (s t : State) (e : BitVec 2) (n : BitVec 8) (i j : Fin 8),
    (i.val < 4 ↔ j.val < 4) → s.lfos[i] = s.lfos[j] → exec (.tick e n) s = .next t →
      t.lfos[i] = t.lfos[j]

/-- The filter tick: bypass passes the input and writes no integrator; else every active stage follows the
recurrence, its input the stage before, the output is the last active stage's `BUF1`, and the other stages
stand (42_filter.md R250 to R253; an infinite cutoff below 0 by the same rules: notes/assumptions/27.md). -/
def Obligations.FilterTickRule : Prop :=
  ∀ (x : F32) (v2 : Option F32) (s : State),
    let cut := match v2 with
      | some v => s.fltCutoff.mul v
      | none => s.fltCutoff
    let nf0 := (F32.mul ⟨0x40490FDB⟩ cut).div s.cfg.sampleRate
    if nf0.lt s.cfg.nfBypass = false then filterTick x v2 s = (x, s)
    else
      let nf := if nf0.lt F32.zero then F32.zero else nf0
      let fb := s.fltQ.add (s.fltQ.div (F32.one.sub nf))
      let t := (filterTick x v2 s).2
      (∀ k : Fin 3, k.val < s.fltPoles.count →
        let input := if h : k.val = 0 then x else t.buf1[k.val - 1]
        let high := input.sub s.buf0[k]
        let band := s.buf0[k].sub s.buf1[k]
        StoredAs (s.buf0[k].add (nf.mul (high.add (fb.mul band)))) t.buf0[k] ∧
        StoredAs (s.buf1[k].add (nf.mul (t.buf0[k].sub s.buf1[k]))) t.buf1[k]) ∧
      (∀ k : Fin 3, s.fltPoles.count ≤ k.val → t.buf0[k] = s.buf0[k] ∧ t.buf1[k] = s.buf1[k]) ∧
      (∀ k : Fin 3, k.val + 1 = s.fltPoles.count → (filterTick x v2 s).1 = t.buf1[k]) ∧
      ∃ b0 b1 d, t = { s with buf0 := b0, buf1 := b1, draws := d }

/-- The stages that are not active are not read: whatever they hold, the output and the active stages come
out the same (42_filter.md R253). -/
def Obligations.InactiveStagesAreUnread : Prop :=
  ∀ (x : F32) (v2 : Option F32) (s : State) (b0 b1 : Vector F32 3),
    (∀ k : Fin 3, k.val < s.fltPoles.count → b0[k] = s.buf0[k] ∧ b1[k] = s.buf1[k]) →
      let r := filterTick x v2 s
      let q := filterTick x v2 { s with buf0 := b0, buf1 := b1 }
      q.1 = r.1 ∧ ∀ k : Fin 3, k.val < s.fltPoles.count →
        q.2.buf0[k] = r.2.buf0[k] ∧ q.2.buf1[k] = r.2.buf1[k]

/-! ### Amplitude unit -/

/-- Step 1 of the ADSR tick, note inspection (41_envelope_gate.md R211), and step 2: while `Stopped` the tick
ends there and nothing else changes (R212). -/
def Obligations.NoteInspection : Prop :=
  ∀ s : State,
    (inspectNote s =
      if s.noteState = .noteOn then
        { s with envStage := .attack, envExt := .playing, susCnt := 0, noteState := .noteHold }
      else if s.noteState = .noteOff ∧ s.envExt = .playing ∧ s.envStage ≠ .release then
        { s with envStage := .release }
      else s) ∧
    (s.envExt = .stopped → s.noteState ≠ .noteOn → adsrTick s = (.stopped, s))

/-- Steps 3 to 5 of every ADSR tick of an envelope that plays after step 1, on the state `t` that step 1
leaves, the tick of a trigger and that of a note-off included: the segment law and the crossing test of the
stage, the clamp, the output (41_envelope_gate.md R211, R213 to R219). -/
def Obligations.EnvelopeStages : Prop :=
  ∀ s : State,
    let t := if s.noteState = .noteOn then
        { s with envStage := .attack, envExt := .playing, susCnt := 0, noteState := .noteHold }
      else if s.noteState = .noteOff ∧ s.envExt = .playing ∧ s.envStage ≠ .release then
        { s with envStage := .release }
      else s
    t.envExt = .playing →
    let peak := t.outputLevel
    let floor := t.cfg.minEnvLevel
    let sus := (t.outputLevel.sub t.sustainDb).max floor
    let snap := fun (d : F32) (n : Word32) => n = 0 ∨ d.feq F32.zero = true
    let clamp := fun (l : F32) =>
      let l1 := if peak.lt l then peak else l
      if l1.lt floor then floor else l1
    (t.envStage = .attack →
      let d := (floor.sub peak).abs
      let n := samples t.cfg t.attackMs
      let l := if snap d n then peak else t.envLevel.add (d.div (F32.ofU32 n))
      adsrTick s = if peak.le l then
          (.playing (db2lin (clamp peak)), { t with envLevel := clamp peak, envStage := .decay })
        else (.playing (db2lin (clamp l)), { t with envLevel := clamp l })) ∧
    (t.envStage = .decay →
      let d := (peak.sub sus).abs
      let n := samples t.cfg t.decayMs
      let l := if snap d n then sus else t.envLevel.sub (d.div (F32.ofU32 n))
      adsrTick s = if l.le sus then
          (.playing (db2lin (clamp sus)),
            { t with envLevel := clamp sus, envStage := .sustain, susCnt := 0 })
        else (.playing (db2lin (clamp l)), { t with envLevel := clamp l })) ∧
    (t.envStage = .sustain →
      let c := if t.susCnt = 0xFFFFFFFF then t.susCnt else t.susCnt + 1
      adsrTick s = (.playing (db2lin (clamp t.envLevel)),
        { t with
            susCnt := c, envLevel := clamp t.envLevel,
            envStage := if samples t.cfg t.sustainMs ≤ c then .release else .sustain })) ∧
    (t.envStage = .release →
      let d := (sus.sub floor).abs
      let n := samples t.cfg t.releaseMs
      let l := if snap d n then floor else t.envLevel.sub (d.div (F32.ofU32 n))
      adsrTick s = if l.le floor then
          (.stopped, { t with envLevel := clamp floor, envStage := .attack, envExt := .stopped })
        else (.playing (db2lin (clamp l)), { t with envLevel := clamp l }))

/-- The stage order Attack, Decay, Sustain, Release, Stopped is never skipped or reordered: a trigger leads
into Attack, a note-off into Release, and otherwise each stage leads to itself or to the next
(41_envelope_gate.md R210, R211, R220). -/
def Obligations.StageOrder : Prop :=
  ∀ s : State,
    let t := (adsrTick s).2
    let released := (t.envExt = .playing ∧ t.envStage = .release) ∨
      (t.envExt = .stopped ∧ t.envStage = .attack)
    match s.noteState with
    | .noteOn => t.envExt = .playing ∧ (t.envStage = .attack ∨ t.envStage = .decay)
    | .noteOff => s.envExt = .playing → released
    | _ => s.envExt = .playing →
        match s.envStage with
        | .attack => t.envExt = .playing ∧ (t.envStage = .attack ∨ t.envStage = .decay)
        | .decay => t.envExt = .playing ∧ (t.envStage = .decay ∨ t.envStage = .sustain)
        | .sustain => t.envExt = .playing ∧ (t.envStage = .sustain ∨ t.envStage = .release)
        | .release => released

/-- After every ADSR tick of a legal state, `MIN_ENV_LEVEL ≤ ENV_LEVEL ≤ OUTPUT_LEVEL` (10_state.md R41). -/
def Obligations.EnvelopeIsBounded : Prop :=
  ∀ s : State, s.Legal →
    s.cfg.minEnvLevel.le (adsrTick s).2.envLevel = true ∧ (adsrTick s).2.envLevel.le s.outputLevel = true

/-- All four durations 0 and one trigger: Attack snaps to the peak, Decay, Sustain and Release follow in one
tick each, and the fourth tick is `Stopped` at the floor (41_envelope_gate.md R220, case 1). -/
def Obligations.ZeroLengthEnvelope : Prop :=
  ∀ s : State, s.Legal → s.noteState = .noteOn →
    s.attackMs = 0 → s.decayMs = 0 → s.sustainMs = 0 → s.releaseMs = 0 →
      (adsrTick s).1 = .playing (db2lin s.outputLevel) ∧ (adsrTicks 1 s).envStage = .decay ∧
      (adsrTicks 2 s).envStage = .sustain ∧ (adsrTicks 3 s).envStage = .release ∧
      (adsrTick (adsrTicks 3 s)).1 = .stopped ∧ (adsrTicks 4 s).envLevel = s.cfg.minEnvLevel

/-- Sustain lasts max(N_SUSTAIN, 1) ticks unless a note event ends it (41_envelope_gate.md R216). -/
def Obligations.SustainLength : Prop :=
  ∀ (s : State) (n : Nat), s.envExt = .playing → s.envStage = .sustain → s.susCnt = 0 →
    s.noteState = .rest ∨ s.noteState = .noteHold →
    let len := max (samples s.cfg s.sustainMs).toNat 1
    (n < len → (adsrTicks n s).envStage = .sustain ∧ (adsrTicks n s).envExt = .playing) ∧
    (adsrTicks len s).envStage = .release

/-- The Gate tick by the state at its start (41_envelope_gate.md R226, R227, R228), the maxima at every tick
those of 10_state.md R32: their sum is the total. By `AMP_MODE` a frame runs this tick or the ADSR tick, and
`NOTE_ADVANCE` is 1 in a frame exactly if it is the Gate's End tick (R208, R228). -/
def Obligations.GateTickRule : Prop :=
  ∀ s : State,
    let satInc := fun c : Word32 => if c = 0xFFFFFFFF then c else c + 1
    let total := samples s.cfg s.gateLenMs
    let half := samplesF s.cfg ((F32.ofI32 s.gateLenMs).mul s.gateDuty)
    let onMax := if half ≤ total then half else total
    (gateTick s = match s.gateState with
      | .on => ((.playing (db2lin s.outputLevel), false),
          if onMax ≤ satInc s.gateOnCnt then
            { s with gateOnCnt := satInc s.gateOnCnt, gateState := .off, gateOffCnt := 0 }
          else { s with gateOnCnt := satInc s.gateOnCnt })
      | .off => ((.stopped, false),
          if total - onMax ≤ satInc s.gateOffCnt then
            { s with gateOffCnt := satInc s.gateOffCnt, gateState := .done }
          else { s with gateOffCnt := satInc s.gateOffCnt })
      | .done => ((.stopped, true), { s with gateState := .on, gateOnCnt := 0 })) ∧
    (gateOnMax s).toNat + (gateOffMax s).toNat = total.toNat ∧
    (s.ampMode = .gate → ampTick s = gateTick s) ∧
    (s.ampMode = .envelope → ampTick s = (((adsrTick s).1, false), (adsrTick s).2)) ∧
    ((ampTick s).1.2 = true ↔ s.ampMode = .gate ∧ s.gateState = .done)

/-- One Gate cycle lasts max(GATE_ON_MAX, 1) + max(GATE_OFF_MAX, 1) + 1 ticks, On, then Off, then the one
End tick, in which alone `NOTE_ADVANCE` is 1, and begins again (41_envelope_gate.md R225, R228). -/
def Obligations.GateCycle : Prop :=
  ∀ s : State, s.gateState = .on → s.gateOnCnt = 0 →
    let on := max (gateOnMax s).toNat 1
    let off := max (gateOffMax s).toNat 1
    (∀ n < on, (gateTicks n s).gateState = .on) ∧
    (∀ n, on ≤ n → n < on + off → (gateTicks n s).gateState = .off) ∧
    (gateTicks (on + off) s).gateState = .done ∧
    (gateTicks (on + off + 1) s).gateState = .on ∧ (gateTicks (on + off + 1) s).gateOnCnt = 0 ∧
    ∀ n ≤ on + off, (gateTick (gateTicks n s)).1.2 = true ↔ n = on + off

/-- Lost trigger: a note-on and its note-off with no ADSR tick between them leave `NOTE_STATE = NoteOff`, and
a stopped envelope stays stopped; a note-on left pending by the Gate starts it
(70_reset_and_hazards.md R391). -/
def Obligations.LostTrigger : Prop :=
  ∀ (s t u : State) (n : BitVec 8), n.toNat < 128 → s.envExt = .stopped →
    exec (.noteOn n) s = .next t → exec (.noteOff n) t = .next u →
      u.noteState = .noteOff ∧ adsrTick u = (.stopped, u) ∧
      (adsrTick t).2.envExt = .playing
end

