-- ==== Sys2Proof/Laws/Float.lean ====
section
/-! SUPPORT. What binary32 operations can do, once each: which results are not a NaN, that the order is
total away from NaN, what `min`, `max`, `clamp` and a drawn value are. -/

namespace Sys2Proof.F32

theorem roundMag_le (num den : Nat) : roundMag num den ≤ infMag := Nat.min_le_right _ _

theorem pack_toNat (neg : Bool) {m : Nat} (h : m ≤ infMag) :
    (pack neg m).bits.toNat = if neg then m + 2 ^ 31 else m := by
  have : m ≤ 0x7F800000 := h
  cases neg <;> simp only [pack, BitVec.toNat_ofNat] <;> simp <;> omega

/-- A packed magnitude up to the infinity's is no NaN. -/
theorem isNaN_pack (neg : Bool) {m : Nat} (h : m ≤ infMag) : (pack neg m).isNaN = false := by
  have hm : m ≤ 0x7F800000 := h
  have := pack_toNat neg h
  simp only [isNaN, expo, frac, this]
  cases neg <;> (simp; omega)

theorem isNaN_round (neg : Bool) (num den : Nat) : (pack neg (roundMag num den)).isNaN = false :=
  isNaN_pack neg (roundMag_le num den)

theorem isNaN_of_finite {a : F32} (h : a.isFinite = true) : a.isNaN = false := by
  simp only [isFinite, bne_iff_ne, ne_eq] at h
  simp [isNaN, h]

theorem isInf_of_finite {a : F32} (h : a.isFinite = true) : a.isInf = false := by
  simp only [isFinite, bne_iff_ne, ne_eq] at h
  simp [isInf, h]

/-- The pattern without its sign. -/
theorem frac_expo (a : F32) : a.bits.toNat % 2 ^ 31 = a.expo * 2 ^ 23 + a.frac := by
  simp only [expo, frac]; omega

theorem expo_neg (a : F32) : a.neg.expo = a.expo := by
  simp only [neg, pack, expo, BitVec.toNat_ofNat]
  cases a.sign <;> (simp; omega)

theorem frac_neg (a : F32) : a.neg.frac = a.frac := by
  simp only [neg, pack, frac, BitVec.toNat_ofNat]
  cases a.sign
  all_goals simp
  all_goals omega

theorem isNaN_neg (a : F32) : a.neg.isNaN = a.isNaN := by simp [isNaN, expo_neg, frac_neg]

theorem isFinite_neg (a : F32) : a.neg.isFinite = a.isFinite := by simp [isFinite, expo_neg]

/-- The sum of two finite values is no NaN. -/
theorem isNaN_add {a b : F32} (ha : a.isFinite = true) (hb : b.isFinite = true) :
    (a.add b).isNaN = false := by
  simp only [add, isNaN_of_finite ha, isNaN_of_finite hb, isInf_of_finite ha, isInf_of_finite hb,
    Bool.or_self, Bool.false_eq_true, if_false]
  split
  · exact isNaN_pack _ (Nat.zero_le _)
  · exact isNaN_round _ _ _

theorem isNaN_sub {a b : F32} (ha : a.isFinite = true) (hb : b.isFinite = true) :
    (a.sub b).isNaN = false := isNaN_add ha ((isFinite_neg b).trans hb)

/-- A finite value plus a value that is no NaN is no NaN. -/
theorem isNaN_add_right {a b : F32} (ha : a.isFinite = true) (hb : b.isNaN = false) :
    (a.add b).isNaN = false := by
  by_cases h : b.isFinite = true
  · exact isNaN_add ha h
  · have hi : b.isInf = true := by
      simp only [isFinite, bne_iff_ne, ne_eq, not_not] at h
      simpa [isInf, isNaN, h] using hb
    simp only [add, isNaN_of_finite ha, hb, isInf_of_finite ha, hi]
    simpa using hb

theorem isNaN_sub_right {a b : F32} (ha : a.isFinite = true) (hb : b.isNaN = false) :
    (a.sub b).isNaN = false := isNaN_add_right ha ((isNaN_neg b).trans hb)

theorem isNaN_mul {a b : F32} (ha : a.isFinite = true) (hb : b.isFinite = true) :
    (a.mul b).isNaN = false := by
  simp only [mul, isNaN_of_finite ha, isNaN_of_finite hb, isInf_of_finite ha, isInf_of_finite hb,
    Bool.or_self, Bool.false_eq_true, if_false]
  exact isNaN_round _ _ _

theorem isNaN_inf (neg : Bool) : (inf neg).isNaN = false := isNaN_pack neg (Nat.le_refl _)

/-- A value that is no NaN divided by a finite non-zero one is no NaN. -/
theorem isNaN_div {a b : F32} (ha : a.isNaN = false) (hb : b.isFinite = true) (hz : b.isZero = false) :
    (a.div b).isNaN = false := by
  simp only [div, ha, isNaN_of_finite hb, isInf_of_finite hb, hz]
  cases a.isInf
  · simpa using isNaN_round _ _ _
  · simpa using isNaN_inf _

/-- Away from NaN, `<` is the negation of the converse `≤`. -/
theorem lt_eq_not_le {a b : F32} (ha : a.isNaN = false) (hb : b.isNaN = false) :
    lt a b = !le b a := by
  simp only [lt, le, ha, hb]
  by_cases h : a.units < b.units <;> simp [h, Int.not_le.2, Int.not_lt.1]

theorem le_refl {a : F32} (ha : a.isNaN = false) : le a a = true := by simp [le, ha]

theorem le_iff {a b : F32} :
    le a b = true ↔ a.isNaN = false ∧ b.isNaN = false ∧ a.units ≤ b.units := by
  simp [le, and_assoc]

theorem lt_iff {a b : F32} :
    lt a b = true ↔ a.isNaN = false ∧ b.isNaN = false ∧ a.units < b.units := by
  simp [lt, and_assoc]

theorem le_trans {a b c : F32} (h1 : le a b = true) (h2 : le b c = true) : le a c = true := by
  rw [le_iff] at *
  exact ⟨h1.1, h2.2.1, Int.le_trans h1.2.2 h2.2.2⟩

theorem le_of_not_lt {a b : F32} (ha : a.isNaN = false) (hb : b.isNaN = false) (h : lt a b = false) :
    le b a = true := by
  rw [lt_eq_not_le ha hb] at h
  simpa using h

/-- `max` is one of its operands, and neither operand is above it. -/
theorem max_cases {a b : F32} (ha : a.isNaN = false) (hb : b.isNaN = false) :
    (max a b = a ∨ max a b = b) ∧ le a (max a b) = true ∧ le b (max a b) = true := by
  unfold max
  have haa := le_refl ha
  have hbb := le_refl hb
  cases h1 : lt a b <;> cases h2 : lt b a <;> simp only [Bool.false_eq_true, if_true, if_false]
  · have l1 := le_of_not_lt ha hb h1
    have l2 := le_of_not_lt hb ha h2
    split
    · exact ⟨by simp, haa, l1⟩
    · split
      · exact ⟨by simp, haa, l1⟩
      · exact ⟨by simp, l2, hbb⟩
  · exact ⟨by simp, haa, le_of_not_lt ha hb h1⟩
  · exact ⟨by simp, le_of_not_lt hb ha h2, hbb⟩
  · rw [lt_iff] at h1 h2; omega

/-- `min` is one of its operands, and neither operand is below it. -/
theorem min_cases {a b : F32} (ha : a.isNaN = false) (hb : b.isNaN = false) :
    (min a b = a ∨ min a b = b) ∧ le (min a b) a = true ∧ le (min a b) b = true := by
  unfold min
  have haa := le_refl ha
  have hbb := le_refl hb
  cases h1 : lt a b <;> cases h2 : lt b a <;> simp only [Bool.false_eq_true, if_true, if_false]
  · have l1 := le_of_not_lt ha hb h1
    have l2 := le_of_not_lt hb ha h2
    split
    · exact ⟨by simp, haa, l2⟩
    · split
      · exact ⟨by simp, haa, l2⟩
      · exact ⟨by simp, l1, hbb⟩
  · exact ⟨by simp, le_of_not_lt ha hb h1, hbb⟩
  · exact ⟨by simp, haa, le_of_not_lt hb ha h2⟩
  · rw [lt_iff] at h1 h2; omega

/-- `clamp(v, lo, hi)` lies between its bounds. -/
theorem clamp_mem {v lo hi : F32} (hv : v.isNaN = false) (h : le lo hi = true) :
    le lo (clamp v lo hi) = true ∧ le (clamp v lo hi) hi = true := by
  have hl := (le_iff.1 h).1
  have hh := (le_iff.1 h).2.1
  obtain ⟨hm, _, hm2⟩ := min_cases hv hh
  have hmin : (min v hi).isNaN = false := by rcases hm with e | e <;> rw [e] <;> assumption
  obtain ⟨hx, hx1, _⟩ := max_cases hl hmin
  refine ⟨hx1, ?_⟩
  unfold clamp
  rcases hx with e | e <;> rw [e] <;> assumption

end Sys2Proof.F32

namespace Sys2Proof

/-- A drawn NaN is a quiet NaN (00_scope.md R12). -/
theorem nanDraw_expo (n : Nat) : (nanDraw n).expo = 255 := by
  simp only [nanDraw, F32.expo]
  generalize (Config.nanBits n) = b
  have h1 := (b.extractLsb' 22 1).isLt
  have h2 := (b.extractLsb' 0 22).isLt
  generalize b.extractLsb' 22 1 = x at *
  generalize b.extractLsb' 0 22 = y at *
  simp only [BitVec.toNat_append, BitVec.toNat_ofNat]
  rw [← Nat.shiftLeft_add_eq_or_of_lt h2, ← Nat.shiftLeft_add_eq_or_of_lt (by decide)]
  simp only [Nat.shiftLeft_eq]
  omega

end Sys2Proof
end

