-- ==== Sys2Proof/Laws/State.lean ====
section
/-! SUPPORT. The fields of the state after each named write: one lemma per field per update, and the
elements of the written vectors. -/

namespace Sys2Proof.Machine

section
variable (s : State) (i : Fin 4) (sl : Slot)

@[simp] theorem setSlot_slots : (s.setSlot i sl).slots = s.slots.set i sl := rfl
@[simp] theorem setSlot_unisonEn : (s.setSlot i sl).unisonEn = s.unisonEn := rfl
@[simp] theorem setSlot_unisonSpread : (s.setSlot i sl).unisonSpread = s.unisonSpread := rfl
@[simp] theorem setSlot_constLevel : (s.setSlot i sl).constLevel = s.constLevel := rfl
@[simp] theorem setSlot_lfos : (s.setSlot i sl).lfos = s.lfos := rfl
@[simp] theorem setSlot_fltCutoff : (s.setSlot i sl).fltCutoff = s.fltCutoff := rfl
@[simp] theorem setSlot_fltQ : (s.setSlot i sl).fltQ = s.fltQ := rfl
@[simp] theorem setSlot_fltPoles : (s.setSlot i sl).fltPoles = s.fltPoles := rfl
@[simp] theorem setSlot_buf0 : (s.setSlot i sl).buf0 = s.buf0 := rfl
@[simp] theorem setSlot_buf1 : (s.setSlot i sl).buf1 = s.buf1 := rfl
@[simp] theorem setSlot_ampMode : (s.setSlot i sl).ampMode = s.ampMode := rfl
@[simp] theorem setSlot_outputLevel : (s.setSlot i sl).outputLevel = s.outputLevel := rfl
@[simp] theorem setSlot_attackMs : (s.setSlot i sl).attackMs = s.attackMs := rfl
@[simp] theorem setSlot_decayMs : (s.setSlot i sl).decayMs = s.decayMs := rfl
@[simp] theorem setSlot_releaseMs : (s.setSlot i sl).releaseMs = s.releaseMs := rfl
@[simp] theorem setSlot_sustainMs : (s.setSlot i sl).sustainMs = s.sustainMs := rfl
@[simp] theorem setSlot_sustainDb : (s.setSlot i sl).sustainDb = s.sustainDb := rfl
@[simp] theorem setSlot_gateDuty : (s.setSlot i sl).gateDuty = s.gateDuty := rfl
@[simp] theorem setSlot_gateLenMs : (s.setSlot i sl).gateLenMs = s.gateLenMs := rfl
@[simp] theorem setSlot_curNote : (s.setSlot i sl).curNote = s.curNote := rfl
@[simp] theorem setSlot_noteState : (s.setSlot i sl).noteState = s.noteState := rfl
@[simp] theorem setSlot_envLevel : (s.setSlot i sl).envLevel = s.envLevel := rfl
@[simp] theorem setSlot_envStage : (s.setSlot i sl).envStage = s.envStage := rfl
@[simp] theorem setSlot_envExt : (s.setSlot i sl).envExt = s.envExt := rfl
@[simp] theorem setSlot_susCnt : (s.setSlot i sl).susCnt = s.susCnt := rfl
@[simp] theorem setSlot_gateState : (s.setSlot i sl).gateState = s.gateState := rfl
@[simp] theorem setSlot_gateOnCnt : (s.setSlot i sl).gateOnCnt = s.gateOnCnt := rfl
@[simp] theorem setSlot_gateOffCnt : (s.setSlot i sl).gateOffCnt = s.gateOffCnt := rfl
@[simp] theorem setSlot_inBuffer : (s.setSlot i sl).inBuffer = s.inBuffer := rfl
@[simp] theorem setSlot_cmdq : (s.setSlot i sl).cmdq = s.cmdq := rfl
@[simp] theorem setSlot_cfg : (s.setSlot i sl).cfg = s.cfg := rfl
@[simp] theorem setSlot_ctrlIn : (s.setSlot i sl).ctrlIn = s.ctrlIn := rfl
@[simp] theorem setSlot_agenda : (s.setSlot i sl).agenda = s.agenda := rfl
@[simp] theorem setSlot_draws : (s.setSlot i sl).draws = s.draws := rfl
@[simp] theorem setSlot_out : (s.setSlot i sl).out = s.out := rfl

end

section
variable (s : State) (i : Fin 8) (l : Lfo)

@[simp] theorem setLfo_slots : (s.setLfo i l).slots = s.slots := rfl
@[simp] theorem setLfo_unisonEn : (s.setLfo i l).unisonEn = s.unisonEn := rfl
@[simp] theorem setLfo_unisonSpread : (s.setLfo i l).unisonSpread = s.unisonSpread := rfl
@[simp] theorem setLfo_constLevel : (s.setLfo i l).constLevel = s.constLevel := rfl
@[simp] theorem setLfo_lfos : (s.setLfo i l).lfos = s.lfos.set i l := rfl
@[simp] theorem setLfo_fltCutoff : (s.setLfo i l).fltCutoff = s.fltCutoff := rfl
@[simp] theorem setLfo_fltQ : (s.setLfo i l).fltQ = s.fltQ := rfl
@[simp] theorem setLfo_fltPoles : (s.setLfo i l).fltPoles = s.fltPoles := rfl
@[simp] theorem setLfo_buf0 : (s.setLfo i l).buf0 = s.buf0 := rfl
@[simp] theorem setLfo_buf1 : (s.setLfo i l).buf1 = s.buf1 := rfl
@[simp] theorem setLfo_ampMode : (s.setLfo i l).ampMode = s.ampMode := rfl
@[simp] theorem setLfo_outputLevel : (s.setLfo i l).outputLevel = s.outputLevel := rfl
@[simp] theorem setLfo_attackMs : (s.setLfo i l).attackMs = s.attackMs := rfl
@[simp] theorem setLfo_decayMs : (s.setLfo i l).decayMs = s.decayMs := rfl
@[simp] theorem setLfo_releaseMs : (s.setLfo i l).releaseMs = s.releaseMs := rfl
@[simp] theorem setLfo_sustainMs : (s.setLfo i l).sustainMs = s.sustainMs := rfl
@[simp] theorem setLfo_sustainDb : (s.setLfo i l).sustainDb = s.sustainDb := rfl
@[simp] theorem setLfo_gateDuty : (s.setLfo i l).gateDuty = s.gateDuty := rfl
@[simp] theorem setLfo_gateLenMs : (s.setLfo i l).gateLenMs = s.gateLenMs := rfl
@[simp] theorem setLfo_curNote : (s.setLfo i l).curNote = s.curNote := rfl
@[simp] theorem setLfo_noteState : (s.setLfo i l).noteState = s.noteState := rfl
@[simp] theorem setLfo_envLevel : (s.setLfo i l).envLevel = s.envLevel := rfl
@[simp] theorem setLfo_envStage : (s.setLfo i l).envStage = s.envStage := rfl
@[simp] theorem setLfo_envExt : (s.setLfo i l).envExt = s.envExt := rfl
@[simp] theorem setLfo_susCnt : (s.setLfo i l).susCnt = s.susCnt := rfl
@[simp] theorem setLfo_gateState : (s.setLfo i l).gateState = s.gateState := rfl
@[simp] theorem setLfo_gateOnCnt : (s.setLfo i l).gateOnCnt = s.gateOnCnt := rfl
@[simp] theorem setLfo_gateOffCnt : (s.setLfo i l).gateOffCnt = s.gateOffCnt := rfl
@[simp] theorem setLfo_inBuffer : (s.setLfo i l).inBuffer = s.inBuffer := rfl
@[simp] theorem setLfo_cmdq : (s.setLfo i l).cmdq = s.cmdq := rfl
@[simp] theorem setLfo_cfg : (s.setLfo i l).cfg = s.cfg := rfl
@[simp] theorem setLfo_ctrlIn : (s.setLfo i l).ctrlIn = s.ctrlIn := rfl
@[simp] theorem setLfo_agenda : (s.setLfo i l).agenda = s.agenda := rfl
@[simp] theorem setLfo_draws : (s.setLfo i l).draws = s.draws := rfl
@[simp] theorem setLfo_out : (s.setLfo i l).out = s.out := rfl

end

section
variable (s : State) (n : Nat)

@[simp] theorem setDraws_slots : (s.setDraws n).slots = s.slots := rfl
@[simp] theorem setDraws_unisonEn : (s.setDraws n).unisonEn = s.unisonEn := rfl
@[simp] theorem setDraws_unisonSpread : (s.setDraws n).unisonSpread = s.unisonSpread := rfl
@[simp] theorem setDraws_constLevel : (s.setDraws n).constLevel = s.constLevel := rfl
@[simp] theorem setDraws_lfos : (s.setDraws n).lfos = s.lfos := rfl
@[simp] theorem setDraws_fltCutoff : (s.setDraws n).fltCutoff = s.fltCutoff := rfl
@[simp] theorem setDraws_fltQ : (s.setDraws n).fltQ = s.fltQ := rfl
@[simp] theorem setDraws_fltPoles : (s.setDraws n).fltPoles = s.fltPoles := rfl
@[simp] theorem setDraws_buf0 : (s.setDraws n).buf0 = s.buf0 := rfl
@[simp] theorem setDraws_buf1 : (s.setDraws n).buf1 = s.buf1 := rfl
@[simp] theorem setDraws_ampMode : (s.setDraws n).ampMode = s.ampMode := rfl
@[simp] theorem setDraws_outputLevel : (s.setDraws n).outputLevel = s.outputLevel := rfl
@[simp] theorem setDraws_attackMs : (s.setDraws n).attackMs = s.attackMs := rfl
@[simp] theorem setDraws_decayMs : (s.setDraws n).decayMs = s.decayMs := rfl
@[simp] theorem setDraws_releaseMs : (s.setDraws n).releaseMs = s.releaseMs := rfl
@[simp] theorem setDraws_sustainMs : (s.setDraws n).sustainMs = s.sustainMs := rfl
@[simp] theorem setDraws_sustainDb : (s.setDraws n).sustainDb = s.sustainDb := rfl
@[simp] theorem setDraws_gateDuty : (s.setDraws n).gateDuty = s.gateDuty := rfl
@[simp] theorem setDraws_gateLenMs : (s.setDraws n).gateLenMs = s.gateLenMs := rfl
@[simp] theorem setDraws_curNote : (s.setDraws n).curNote = s.curNote := rfl
@[simp] theorem setDraws_noteState : (s.setDraws n).noteState = s.noteState := rfl
@[simp] theorem setDraws_envLevel : (s.setDraws n).envLevel = s.envLevel := rfl
@[simp] theorem setDraws_envStage : (s.setDraws n).envStage = s.envStage := rfl
@[simp] theorem setDraws_envExt : (s.setDraws n).envExt = s.envExt := rfl
@[simp] theorem setDraws_susCnt : (s.setDraws n).susCnt = s.susCnt := rfl
@[simp] theorem setDraws_gateState : (s.setDraws n).gateState = s.gateState := rfl
@[simp] theorem setDraws_gateOnCnt : (s.setDraws n).gateOnCnt = s.gateOnCnt := rfl
@[simp] theorem setDraws_gateOffCnt : (s.setDraws n).gateOffCnt = s.gateOffCnt := rfl
@[simp] theorem setDraws_inBuffer : (s.setDraws n).inBuffer = s.inBuffer := rfl
@[simp] theorem setDraws_cmdq : (s.setDraws n).cmdq = s.cmdq := rfl
@[simp] theorem setDraws_cfg : (s.setDraws n).cfg = s.cfg := rfl
@[simp] theorem setDraws_ctrlIn : (s.setDraws n).ctrlIn = s.ctrlIn := rfl
@[simp] theorem setDraws_agenda : (s.setDraws n).agenda = s.agenda := rfl
@[simp] theorem setDraws_draws : (s.setDraws n).draws = n := rfl
@[simp] theorem setDraws_out : (s.setDraws n).out = s.out := rfl

end

section
variable (s : State) (k : Fin 3) (b0 b1 : F32)

@[simp] theorem setStage_slots : (s.setStage k b0 b1).slots = s.slots := rfl
@[simp] theorem setStage_unisonEn : (s.setStage k b0 b1).unisonEn = s.unisonEn := rfl
@[simp] theorem setStage_unisonSpread : (s.setStage k b0 b1).unisonSpread = s.unisonSpread := rfl
@[simp] theorem setStage_constLevel : (s.setStage k b0 b1).constLevel = s.constLevel := rfl
@[simp] theorem setStage_lfos : (s.setStage k b0 b1).lfos = s.lfos := rfl
@[simp] theorem setStage_fltCutoff : (s.setStage k b0 b1).fltCutoff = s.fltCutoff := rfl
@[simp] theorem setStage_fltQ : (s.setStage k b0 b1).fltQ = s.fltQ := rfl
@[simp] theorem setStage_fltPoles : (s.setStage k b0 b1).fltPoles = s.fltPoles := rfl
@[simp] theorem setStage_buf0 : (s.setStage k b0 b1).buf0 = s.buf0.set k b0 := rfl
@[simp] theorem setStage_buf1 : (s.setStage k b0 b1).buf1 = s.buf1.set k b1 := rfl
@[simp] theorem setStage_ampMode : (s.setStage k b0 b1).ampMode = s.ampMode := rfl
@[simp] theorem setStage_outputLevel : (s.setStage k b0 b1).outputLevel = s.outputLevel := rfl
@[simp] theorem setStage_attackMs : (s.setStage k b0 b1).attackMs = s.attackMs := rfl
@[simp] theorem setStage_decayMs : (s.setStage k b0 b1).decayMs = s.decayMs := rfl
@[simp] theorem setStage_releaseMs : (s.setStage k b0 b1).releaseMs = s.releaseMs := rfl
@[simp] theorem setStage_sustainMs : (s.setStage k b0 b1).sustainMs = s.sustainMs := rfl
@[simp] theorem setStage_sustainDb : (s.setStage k b0 b1).sustainDb = s.sustainDb := rfl
@[simp] theorem setStage_gateDuty : (s.setStage k b0 b1).gateDuty = s.gateDuty := rfl
@[simp] theorem setStage_gateLenMs : (s.setStage k b0 b1).gateLenMs = s.gateLenMs := rfl
@[simp] theorem setStage_curNote : (s.setStage k b0 b1).curNote = s.curNote := rfl
@[simp] theorem setStage_noteState : (s.setStage k b0 b1).noteState = s.noteState := rfl
@[simp] theorem setStage_envLevel : (s.setStage k b0 b1).envLevel = s.envLevel := rfl
@[simp] theorem setStage_envStage : (s.setStage k b0 b1).envStage = s.envStage := rfl
@[simp] theorem setStage_envExt : (s.setStage k b0 b1).envExt = s.envExt := rfl
@[simp] theorem setStage_susCnt : (s.setStage k b0 b1).susCnt = s.susCnt := rfl
@[simp] theorem setStage_gateState : (s.setStage k b0 b1).gateState = s.gateState := rfl
@[simp] theorem setStage_gateOnCnt : (s.setStage k b0 b1).gateOnCnt = s.gateOnCnt := rfl
@[simp] theorem setStage_gateOffCnt : (s.setStage k b0 b1).gateOffCnt = s.gateOffCnt := rfl
@[simp] theorem setStage_inBuffer : (s.setStage k b0 b1).inBuffer = s.inBuffer := rfl
@[simp] theorem setStage_cmdq : (s.setStage k b0 b1).cmdq = s.cmdq := rfl
@[simp] theorem setStage_cfg : (s.setStage k b0 b1).cfg = s.cfg := rfl
@[simp] theorem setStage_ctrlIn : (s.setStage k b0 b1).ctrlIn = s.ctrlIn := rfl
@[simp] theorem setStage_agenda : (s.setStage k b0 b1).agenda = s.agenda := rfl
@[simp] theorem setStage_draws : (s.setStage k b0 b1).draws = s.draws := rfl
@[simp] theorem setStage_out : (s.setStage k b0 b1).out = s.out := rfl

end

section
variable (s : State) (r : OutRecord)

@[simp] theorem emit_slots : (s.emit r).slots = s.slots := rfl
@[simp] theorem emit_unisonEn : (s.emit r).unisonEn = s.unisonEn := rfl
@[simp] theorem emit_unisonSpread : (s.emit r).unisonSpread = s.unisonSpread := rfl
@[simp] theorem emit_constLevel : (s.emit r).constLevel = s.constLevel := rfl
@[simp] theorem emit_lfos : (s.emit r).lfos = s.lfos := rfl
@[simp] theorem emit_fltCutoff : (s.emit r).fltCutoff = s.fltCutoff := rfl
@[simp] theorem emit_fltQ : (s.emit r).fltQ = s.fltQ := rfl
@[simp] theorem emit_fltPoles : (s.emit r).fltPoles = s.fltPoles := rfl
@[simp] theorem emit_buf0 : (s.emit r).buf0 = s.buf0 := rfl
@[simp] theorem emit_buf1 : (s.emit r).buf1 = s.buf1 := rfl
@[simp] theorem emit_ampMode : (s.emit r).ampMode = s.ampMode := rfl
@[simp] theorem emit_outputLevel : (s.emit r).outputLevel = s.outputLevel := rfl
@[simp] theorem emit_attackMs : (s.emit r).attackMs = s.attackMs := rfl
@[simp] theorem emit_decayMs : (s.emit r).decayMs = s.decayMs := rfl
@[simp] theorem emit_releaseMs : (s.emit r).releaseMs = s.releaseMs := rfl
@[simp] theorem emit_sustainMs : (s.emit r).sustainMs = s.sustainMs := rfl
@[simp] theorem emit_sustainDb : (s.emit r).sustainDb = s.sustainDb := rfl
@[simp] theorem emit_gateDuty : (s.emit r).gateDuty = s.gateDuty := rfl
@[simp] theorem emit_gateLenMs : (s.emit r).gateLenMs = s.gateLenMs := rfl
@[simp] theorem emit_curNote : (s.emit r).curNote = s.curNote := rfl
@[simp] theorem emit_noteState : (s.emit r).noteState = s.noteState := rfl
@[simp] theorem emit_envLevel : (s.emit r).envLevel = s.envLevel := rfl
@[simp] theorem emit_envStage : (s.emit r).envStage = s.envStage := rfl
@[simp] theorem emit_envExt : (s.emit r).envExt = s.envExt := rfl
@[simp] theorem emit_susCnt : (s.emit r).susCnt = s.susCnt := rfl
@[simp] theorem emit_gateState : (s.emit r).gateState = s.gateState := rfl
@[simp] theorem emit_gateOnCnt : (s.emit r).gateOnCnt = s.gateOnCnt := rfl
@[simp] theorem emit_gateOffCnt : (s.emit r).gateOffCnt = s.gateOffCnt := rfl
@[simp] theorem emit_inBuffer : (s.emit r).inBuffer = s.inBuffer := rfl
@[simp] theorem emit_cmdq : (s.emit r).cmdq = s.cmdq := rfl
@[simp] theorem emit_cfg : (s.emit r).cfg = s.cfg := rfl
@[simp] theorem emit_ctrlIn : (s.emit r).ctrlIn = s.ctrlIn := rfl
@[simp] theorem emit_agenda : (s.emit r).agenda = s.agenda := rfl
@[simp] theorem emit_draws : (s.emit r).draws = s.draws := rfl
@[simp] theorem emit_out : (s.emit r).out = s.out ++ [r] := rfl

end

/-- The written slot is the new one and the others stand. -/
theorem setSlot_get (s : State) (i j : Fin 4) (sl : Slot) :
    (s.setSlot i sl).slots[j] = if i = j then sl else s.slots[j] := by
  simp [Vector.getElem_set, Fin.ext_iff]

/-- The written LFO is the new one and the others stand. -/
theorem setLfo_get (s : State) (i j : Fin 8) (l : Lfo) :
    (s.setLfo i l).lfos[j] = if i = j then l else s.lfos[j] := by
  simp [Vector.getElem_set, Fin.ext_iff]

/-- The written integrators of a stage are the new ones and the other stages' stand. -/
theorem setStage_get (s : State) (i j : Fin 3) (b0 b1 : F32) :
    (s.setStage i b0 b1).buf0[j] = (if i = j then b0 else s.buf0[j]) ∧
      (s.setStage i b0 b1).buf1[j] = (if i = j then b1 else s.buf1[j]) := by
  simp [Vector.getElem_set, Fin.ext_iff]

end Sys2Proof.Machine
end

