-- ==== Sys2Proof/Laws/Frames.lean ====
section
/-! SUPPORT. For each shared operation, once, everything it can write: the state after it is the state
before it with the named fields replaced. Provers cite these instead of unfolding the operation. -/

namespace Sys2Proof.Machine

/-- `Consult(i)` writes the phases of LFO i and the draw index only (43_lfo.md R280). -/
theorem consult_cases (i : Fin 8) (s : State) :
    (needed i s = false ∧ consult i s = (none, s)) ∨
      (needed i s = true ∧ ∃ o v,
        o = wave s.cfg s.lfos[i].shape s.lfos[i].ph s.lfos[i].freq none lfoP0 lfoP1 s.draws ∧
        v = drawNaN (lfoValue s.lfos[i] o.w) o.draws ∧
        consult i s = (some v.val, (s.setLfo i { s.lfos[i] with ph := o.ph }).setDraws v.draws)) := by
  by_cases h : needed i s = true
  · exact .inr ⟨h, _, _, rfl, rfl, by simp [consult, h]⟩
  · exact .inl ⟨by simpa using h, by simp [consult, h]⟩

theorem consult_frame (i : Fin 8) (s : State) :
    ∃ l d, (consult i s).2 = { s with lfos := l, draws := d } := by
  rcases consult_cases i s with ⟨_, h⟩ | ⟨_, o, v, _, _, h⟩
  · exact ⟨s.lfos, s.draws, by rw [h]⟩
  · exact ⟨_, _, by rw [h]; rfl⟩

theorem consultMods_frame (s : State) :
    ∃ l d, (consultMods s).2 = { s with lfos := l, draws := d } := by
  obtain ⟨l0, d0, h0⟩ := consult_frame 4 s
  obtain ⟨l1, d1, h1⟩ := consult_frame 5 (consult 4 s).2
  obtain ⟨l2, d2, h2⟩ := consult_frame 6 (consult 5 (consult 4 s).2).2
  obtain ⟨l3, d3, h3⟩ := consult_frame 7 (consult 6 (consult 5 (consult 4 s).2).2).2
  exact ⟨l3, d3, by simp only [consultMods]; rw [h3, h2, h1, h0]⟩

/-- `SlotTick(s, m)`: the short-circuit (40_oscillator.md R146), or the wave, the saturator and the level
(R142), which write the phases of slot i and the draw index only. -/
theorem slotTick_cases (i : Fin 4) (m : Option F32) (s : State) :
    ((s.slots[i].level.feq F32.zero = true ∨ (unison i (noteFreq i s) s).feq F32.zero = true) ∧
        slotTick i m s = (F32.zero, s)) ∨
      ((s.slots[i].level.feq F32.zero = false ∧ (unison i (noteFreq i s) s).feq F32.zero = false) ∧
        ∃ o y,
          o = wave s.cfg s.slots[i].shape s.slots[i].ph (unison i (noteFreq i s) s) m s.slots[i].p0
            s.slots[i].p1 s.draws ∧
          y = drawNaN (s.slots[i].level.mul (sat s.slots[i].shaper o.w)) o.draws ∧
          slotTick i m s = (y.val, (s.setSlot i { s.slots[i] with ph := o.ph }).setDraws y.draws)) := by
  by_cases h : (s.slots[i].level.feq F32.zero || (unison i (noteFreq i s) s).feq F32.zero) = true
  · exact .inl ⟨by simpa using h, by unfold slotTick; simp only [h, if_true]⟩
  · refine .inr ⟨by simpa using h, _, _, rfl, rfl, ?_⟩
    unfold slotTick
    simp only [h]
    rfl

theorem slotTick_frame (i : Fin 4) (m : Option F32) (s : State) :
    ∃ l d, (slotTick i m s).2 = { s with slots := l, draws := d } := by
  rcases slotTick_cases i m s with ⟨_, h⟩ | ⟨_, o, v, _, _, h⟩
  · exact ⟨s.slots, s.draws, by rw [h]⟩
  · exact ⟨_, _, by rw [h]; rfl⟩

theorem slotTicks_frame (m : Vector (Option F32) 4) (s : State) :
    ∃ l d, (slotTicks m s).2 = { s with slots := l, draws := d } := by
  obtain ⟨l0, d0, h0⟩ := slotTick_frame 0 m[0] s
  obtain ⟨l1, d1, h1⟩ := slotTick_frame 1 m[1] (slotTick 0 m[0] s).2
  obtain ⟨l2, d2, h2⟩ := slotTick_frame 2 m[2] (slotTick 1 m[1] (slotTick 0 m[0] s).2).2
  obtain ⟨l3, d3, h3⟩ :=
    slotTick_frame 3 m[3] (slotTick 2 m[2] (slotTick 1 m[1] (slotTick 0 m[0] s).2).2).2
  exact ⟨l3, d3, by simp only [slotTicks]; rw [h3, h2, h1, h0]⟩

/-- A drawn value: the value itself, or a free NaN (00_scope.md R12). -/
theorem drawNaN_cases (v : F32) (n : Nat) :
    (v.isNaN = false ∧ drawNaN v n = ⟨v, n⟩) ∨ (v.isNaN = true ∧ drawNaN v n = ⟨nanDraw n, n + 1⟩) := by
  by_cases h : v.isNaN = true
  · exact .inr ⟨h, by simp [drawNaN, h]⟩
  · exact .inl ⟨by simpa using h, by simp [drawNaN, h]⟩

theorem mixer_frame (y : Vector F32 4) (s : State) :
    ∃ d, (mixer y s).2 = { s with draws := d } := ⟨_, rfl⟩

theorem cascade_frame (nf fb : F32) (ks : List (Fin 3)) :
    ∀ (x : F32) (s : State), ∃ b0 b1 d,
      (cascade nf fb ks x s).2 = { s with buf0 := b0, buf1 := b1, draws := d } := by
  induction ks with
  | nil => exact fun x s => ⟨s.buf0, s.buf1, s.draws, rfl⟩
  | cons k ks ih =>
    intro x s
    obtain ⟨b0, b1, d, h⟩ := ih _ ((s.setStage k _ _).setDraws _)
    exact ⟨b0, b1, d, by simp only [cascade]; rw [h]; rfl⟩

/-- The cascade writes the integrators of its stages only (42_filter.md R253). -/
theorem cascade_other (nf fb : F32) (ks : List (Fin 3)) (j : Fin 3) (hj : j ∉ ks) :
    ∀ (x : F32) (s : State),
      (cascade nf fb ks x s).2.buf0[j] = s.buf0[j] ∧ (cascade nf fb ks x s).2.buf1[j] = s.buf1[j] := by
  induction ks with
  | nil => exact fun x s => ⟨rfl, rfl⟩
  | cons k ks ih =>
    intro x s
    have hk : k ≠ j := fun e => hj (e ▸ List.mem_cons_self ..)
    have hrest : j ∉ ks := fun e => hj (List.mem_cons_of_mem _ e)
    have := ih hrest (stage nf fb x s.buf0[k] s.buf1[k] s.draws).b1
      ((s.setStage k (stage nf fb x s.buf0[k] s.buf1[k] s.draws).b0
        (stage nf fb x s.buf0[k] s.buf1[k] s.draws).b1).setDraws
          (stage nf fb x s.buf0[k] s.buf1[k] s.draws).draws)
    have hs := setStage_get s k j (stage nf fb x s.buf0[k] s.buf1[k] s.draws).b0
      (stage nf fb x s.buf0[k] s.buf1[k] s.draws).b1
    simp only [cascade]
    simp only [hk, if_false] at hs
    exact ⟨this.1.trans hs.1, this.2.trans hs.2⟩

/-- The filter tick: bypass, or the cascade of the active stages (42_filter.md R251, R252). -/
theorem filterTick_cases (mix : F32) (v2 : Option F32) (s : State) :
    ((normFreq v2 s).lt s.cfg.nfBypass = false ∧ filterTick mix v2 s = (mix, s)) ∨
      ((normFreq v2 s).lt s.cfg.nfBypass = true ∧
        filterTick mix v2 s =
          cascade (clampNf (normFreq v2 s)) (feedback s.fltQ (clampNf (normFreq v2 s)))
            (stagesOf s.fltPoles) mix s) := by
  by_cases h : (normFreq v2 s).lt s.cfg.nfBypass = true
  · exact .inr ⟨h, by simp [filterTick, h]⟩
  · exact .inl ⟨by simpa using h, by simp [filterTick, h]⟩

theorem filterTick_frame (mix : F32) (v2 : Option F32) (s : State) :
    ∃ b0 b1 d, (filterTick mix v2 s).2 = { s with buf0 := b0, buf1 := b1, draws := d } := by
  rcases filterTick_cases mix v2 s with ⟨_, h⟩ | ⟨_, h⟩
  · exact ⟨s.buf0, s.buf1, s.draws, by rw [h]⟩
  · obtain ⟨b0, b1, d, e⟩ := cascade_frame (clampNf (normFreq v2 s))
      (feedback s.fltQ (clampNf (normFreq v2 s))) (stagesOf s.fltPoles) mix s
    exact ⟨b0, b1, d, by rw [h, e]⟩

/-- Note inspection (41_envelope_gate.md R211) writes these fields only. -/
theorem inspectNote_frame (s : State) :
    ∃ st ex c ns, inspectNote s = { s with envStage := st, envExt := ex, susCnt := c, noteState := ns } := by
  unfold inspectNote
  split
  · exact ⟨_, _, _, _, rfl⟩
  · split
    · exact ⟨_, s.envExt, s.susCnt, s.noteState, rfl⟩
    · exact ⟨s.envStage, s.envExt, s.susCnt, s.noteState, rfl⟩
  · exact ⟨s.envStage, s.envExt, s.susCnt, s.noteState, rfl⟩
  · exact ⟨s.envStage, s.envExt, s.susCnt, s.noteState, rfl⟩

/-- The stage step (41_envelope_gate.md R214 to R217) writes these fields only. -/
theorem stageStep_frame (s : State) :
    ∃ l st ex c, stageStep s = { s with envLevel := l, envStage := st, envExt := ex, susCnt := c } := by
  unfold stageStep
  split
  · simp only [attackStep]
    split
    · exact ⟨_, _, s.envExt, s.susCnt, rfl⟩
    · exact ⟨_, s.envStage, s.envExt, s.susCnt, rfl⟩
  · simp only [decayStep]
    split
    · exact ⟨_, _, s.envExt, _, rfl⟩
    · exact ⟨_, s.envStage, s.envExt, s.susCnt, rfl⟩
  · simp only [sustainStep]
    split
    · exact ⟨s.envLevel, _, s.envExt, _, rfl⟩
    · exact ⟨s.envLevel, s.envStage, s.envExt, _, rfl⟩
  · simp only [releaseStep]
    split
    · exact ⟨_, _, _, s.susCnt, rfl⟩
    · exact ⟨_, s.envStage, s.envExt, s.susCnt, rfl⟩

/-- Steps 3 and 4 of the ADSR tick write these fields only. -/
theorem envAdvance_frame (s : State) :
    ∃ l st ex c, envAdvance s = { s with envLevel := l, envStage := st, envExt := ex, susCnt := c } := by
  obtain ⟨l, st, ex, c, h⟩ := stageStep_frame s
  exact ⟨_, st, ex, c, by simp only [envAdvance]; rw [h]⟩

/-- The ADSR tick ends after step 1 while `Stopped` (41_envelope_gate.md R212), else it advances. -/
theorem adsrTick_cases (s : State) :
    ((inspectNote s).envExt = .stopped ∧ adsrTick s = (.stopped, inspectNote s)) ∨
      ((inspectNote s).envExt = .playing ∧
        adsrTick s = (envOut (envAdvance (inspectNote s)), envAdvance (inspectNote s))) := by
  cases h : (inspectNote s).envExt
  · exact .inl ⟨rfl, by simp only [adsrTick, h]⟩
  · exact .inr ⟨rfl, by simp only [adsrTick, h]⟩

theorem adsrTick_frame (s : State) :
    ∃ l st ex c ns, (adsrTick s).2 =
      { s with envLevel := l, envStage := st, envExt := ex, susCnt := c, noteState := ns } := by
  obtain ⟨st, ex, c, ns, hi⟩ := inspectNote_frame s
  rcases adsrTick_cases s with ⟨_, h⟩ | ⟨_, h⟩
  · exact ⟨s.envLevel, st, ex, c, ns, by rw [h, hi]⟩
  · obtain ⟨l, st', ex', c', ha⟩ := envAdvance_frame (inspectNote s)
    exact ⟨l, st', ex', c', ns, by rw [h]; simp only; rw [ha, hi]⟩

/-- The Gate tick (41_envelope_gate.md R226 to R228) writes these fields only. -/
theorem gateTick_frame (s : State) :
    ∃ g a b, (gateTick s).2 = { s with gateState := g, gateOnCnt := a, gateOffCnt := b } := by
  cases h : s.gateState <;> simp only [gateTick, h]
  · split
    · exact ⟨_, _, _, rfl⟩
    · exact ⟨.on, _, s.gateOffCnt, by rw [← h]⟩
  · split
    · exact ⟨_, s.gateOnCnt, _, rfl⟩
    · exact ⟨.off, s.gateOnCnt, _, by rw [← h]⟩
  · exact ⟨_, _, s.gateOffCnt, rfl⟩

/-- The amplitude tick runs one machine and leaves the other (41_envelope_gate.md R208). -/
theorem ampTick_cases (s : State) :
    (s.ampMode = .envelope ∧ ampTick s = (((adsrTick s).1, false), (adsrTick s).2)) ∨
      (s.ampMode = .gate ∧ ampTick s = gateTick s) := by
  cases h : s.ampMode
  · exact .inr ⟨rfl, by simp only [ampTick, h]⟩
  · exact .inl ⟨rfl, by simp only [ampTick, h]⟩

theorem ampTick_frame (s : State) :
    ∃ l st ex c ns g a b, (ampTick s).2 =
      { s with envLevel := l, envStage := st, envExt := ex, susCnt := c, noteState := ns,
               gateState := g, gateOnCnt := a, gateOffCnt := b } := by
  rcases ampTick_cases s with ⟨_, h⟩ | ⟨_, h⟩
  · obtain ⟨l, st, ex, c, ns, e⟩ := adsrTick_frame s
    exact ⟨l, st, ex, c, ns, s.gateState, s.gateOnCnt, s.gateOffCnt, by rw [h]; simp only; rw [e]⟩
  · obtain ⟨g, a, b, e⟩ := gateTick_frame s
    exact ⟨s.envLevel, s.envStage, s.envExt, s.susCnt, s.noteState, g, a, b, by rw [h, e]⟩

/-- A note event writes the note and its state only (41_envelope_gate.md R205, R206). -/
theorem noteSideband_frame (e : BitVec 2) (n : BitVec 8) (s : State) :
    ∃ k ns, noteSideband e n s = { s with curNote := k, noteState := ns } := by
  unfold noteSideband
  split
  · exact ⟨_, _, rfl⟩
  · unfold noteOffOp
    split
    · exact ⟨s.curNote, _, rfl⟩
    · exact ⟨s.curNote, s.noteState, rfl⟩
  · exact ⟨s.curNote, s.noteState, rfl⟩

/-- A chain of consultations after the filter (44_render_system.md R310, step 7) writes LFOs and the draw
index only. -/
theorem consult_frame_of (i : Fin 8) {s t : State} {l : Vector Lfo 8} {d : Nat}
    (h : t = { s with lfos := l, draws := d }) :
    ∃ l d, (consult i t).2 = { s with lfos := l, draws := d } := by
  obtain ⟨l', d', e⟩ := consult_frame i t
  exact ⟨l', d', by rw [e, h]⟩

/-- Steps 1 to 4 of a frame: the state after the mixer. -/
theorem frameMix_frame (e : BitVec 2) (n : BitVec 8) (s : State) :
    ∃ sl lf k ns d,
      (mixer (slotTicks (consultMods (noteSideband e n s)).1 (consultMods (noteSideband e n s)).2).1
        (slotTicks (consultMods (noteSideband e n s)).1 (consultMods (noteSideband e n s)).2).2).2 =
      { s with slots := sl, lfos := lf, curNote := k, noteState := ns, draws := d } := by
  obtain ⟨k, ns, h1⟩ := noteSideband_frame e n s
  obtain ⟨l2, d2, h2⟩ := consultMods_frame (noteSideband e n s)
  generalize consultMods (noteSideband e n s) = m at h2 ⊢
  obtain ⟨l3, d3, h3⟩ := slotTicks_frame m.1 m.2
  generalize slotTicks m.1 m.2 = y at h3 ⊢
  obtain ⟨d4, h4⟩ := mixer_frame y.1 y.2
  exact ⟨l3, l2, k, ns, d4, by rw [h4, h3]; dsimp only; rw [h2]; dsimp only; rw [h1]⟩

/-- Steps 5 to 8 of a frame: the state after the amplitude unit, from the state after the mixer. -/
theorem frameTail_frame (x : F32) (s : State) :
    ∃ lf b0 b1 ns l st ex c g a b d,
      (ampTick (consult 3 (consult 1 (consult 0
        (filterTick x (consult 2 s).1 (consult 2 s).2).2).2).2).2).2 =
      { s with lfos := lf, buf0 := b0, buf1 := b1, noteState := ns, envLevel := l, envStage := st,
               envExt := ex, susCnt := c, gateState := g, gateOnCnt := a, gateOffCnt := b, draws := d } := by
  obtain ⟨l5, d5, h5⟩ := consult_frame 2 s
  generalize consult 2 s = v2 at h5 ⊢
  obtain ⟨b0, b1, d6, h6⟩ := filterTick_frame x v2.1 v2.2
  generalize filterTick x v2.1 v2.2 = flt at h6 ⊢
  obtain ⟨l7, d7, h7⟩ := consult_frame 0 flt.2
  generalize consult 0 flt.2 = pan at h7 ⊢
  obtain ⟨l8, d8, h8⟩ := consult_frame 1 pan.2
  generalize consult 1 pan.2 = trem at h8 ⊢
  obtain ⟨l9, d9, h9⟩ := consult_frame 3 trem.2
  generalize consult 3 trem.2 = phs at h9 ⊢
  obtain ⟨l, st, ex, c, ns, g, a, b, h10⟩ := ampTick_frame phs.2
  exact ⟨l9, b0, b1, ns, l, st, ex, c, g, a, b, d9, by
    rw [h10, h9]; dsimp only; rw [h8]; dsimp only; rw [h7]; dsimp only; rw [h6]; dsimp only; rw [h5]⟩

/-- A frame writes running state, the note, the draw index and one record; nothing else
(44_render_system.md R310, 60_exceptions.md R360). -/
theorem renderFrame_frame (e : BitVec 2) (n : BitVec 8) (s : State) :
    ∃ sl lf b0 b1 k ns l st ex c g a b d r, renderFrame e n s =
      { s with slots := sl, lfos := lf, buf0 := b0, buf1 := b1, curNote := k, noteState := ns,
               envLevel := l, envStage := st, envExt := ex, susCnt := c, gateState := g,
               gateOnCnt := a, gateOffCnt := b, draws := d, out := s.out ++ [r] } := by
  obtain ⟨sl, lf, k, ns, d, h1⟩ := frameMix_frame e n s
  unfold renderFrame
  dsimp only
  generalize consultMods (noteSideband e n s) = m at h1 ⊢
  generalize slotTicks m.1 m.2 = y at h1 ⊢
  generalize mixer y.1 y.2 = mix at h1 ⊢
  obtain ⟨lf', b0, b1, ns', l, st, ex, c, g, a, b, d', h2⟩ := frameTail_frame mix.1 mix.2
  refine ⟨sl, lf', b0, b1, k, ns', l, st, ex, c, g, a, b, d', ?_⟩
  apply Exists.intro
  rw [h2, State.emit, h1]

/-- The move of the executor: held in a buffer, idle on an empty queue, else the head word decoded
(44_render_system.md R302, 20_memory.md R78, R80). -/
theorem executeOp_cases (s : State) :
    (s.inBuffer = true ∧ executeOp s = (none, s)) ∨
      (s.inBuffer = false ∧ s.cmdq = [] ∧ executeOp s = (none, s)) ∨
        (s.inBuffer = false ∧ ∃ w q, s.cmdq = w :: q ∧
          executeOp s = (some (decodeCommand w), { s with cmdq := q })) := by
  cases h : s.inBuffer
  · cases hq : s.cmdq with
    | nil => exact .inr (.inl ⟨rfl, rfl, by simp [executeOp, h, hq]⟩)
    | cons w q => exact .inr (.inr ⟨rfl, w, q, rfl, by simp [executeOp, h, hq]⟩)
  · exact .inl ⟨rfl, by simp [executeOp, h]⟩

/-- The move of the control port: nothing presented, no room, or the word enters at the tail
(20_memory.md R77). -/
theorem acceptOp_cases (s : State) :
    (s.ctrlIn = [] ∧ acceptOp s = s) ∨ (cmdqFull s = true ∧ acceptOp s = s) ∨
      (cmdqFull s = false ∧ ∃ w ws, s.ctrlIn = w :: ws ∧
        acceptOp s = { s with ctrlIn := ws, cmdq := s.cmdq ++ [w] }) := by
  cases hi : s.ctrlIn with
  | nil => exact .inl ⟨rfl, by simp [acceptOp, hi]⟩
  | cons w ws =>
    cases hf : cmdqFull s
    · exact .inr (.inr ⟨rfl, w, ws, rfl, by simp [acceptOp, hi, hf]⟩)
    · exact .inr (.inl ⟨rfl, by simp [acceptOp, hi, hf]⟩)

/-- What a step does, by the move it makes (20_memory.md R82). -/
theorem step_cases (s : State) :
    (s.agenda = [] ∧ step s = .next s) ∨
      ∃ t rest, s.agenda = t :: rest ∧
        ((t = .accept ∧ step s = .next (acceptOp { s with agenda := rest })) ∨
          (t = .reset ∧ step s = .next (resetOp { s with agenda := rest })) ∨
          (t = .execute ∧ (s.inBuffer = true ∨ s.cmdq = []) ∧ step s = .next { s with agenda := rest }) ∨
          (t = .execute ∧ s.inBuffer = false ∧ ∃ w q, s.cmdq = w :: q ∧
            step s = exec (decodeCommand w) { s with agenda := rest, cmdq := q }) ∨
          (∃ e, t = .event e ∧ decodeEvent e = none ∧ step s = .next { s with agenda := rest }) ∨
          (∃ e i, t = .event e ∧ decodeEvent e = some i ∧ step s = exec i { s with agenda := rest })) := by
  cases ha : s.agenda with
  | nil => exact .inl ⟨rfl, by simp [step, fetch, ha]⟩
  | cons t rest =>
    refine .inr ⟨t, rest, rfl, ?_⟩
    cases t with
    | accept => exact .inl ⟨rfl, by simp [step, fetch, ha, turnOp]⟩
    | reset => exact .inr (.inl ⟨rfl, by simp [step, fetch, ha, turnOp]⟩)
    | execute =>
      right; right
      rcases executeOp_cases { s with agenda := rest } with ⟨h, e⟩ | ⟨h, hq, e⟩ | ⟨h, w, q, hq, e⟩
      · exact .inl ⟨rfl, .inl h, by simp only [step, fetch, ha, turnOp]; rw [e]⟩
      · exact .inl ⟨rfl, .inr hq, by simp only [step, fetch, ha, turnOp]; rw [e]⟩
      · exact .inr (.inl ⟨rfl, h, w, q, hq, by simp only [step, fetch, ha, turnOp]; rw [e]⟩)
    | event e =>
      right; right; right; right
      cases hd : decodeEvent e with
      | none => exact .inl ⟨e, rfl, hd, by simp [step, fetch, ha, turnOp, hd]⟩
      | some i => exact .inr ⟨e, i, rfl, hd, by simp [step, fetch, ha, turnOp, hd]⟩

end Sys2Proof.Machine
end

