-- ==== Sys2Proof/Laws/PerInstr.lean ====
section
/-! SUPPORT. The family `EncodeMatchesRow`: the encoding of every instruction carries the opcode or the event
code of its own row of spec/opcode_table.json, and zero where the row reads nothing (30_encoding.md R101,
R106, R107, R111). -/

namespace Sys2Proof.Laws.EncodeMatchesRow

/-- The fixed bits of a row: the opcode of a command, the `EVT` of an event. -/
inductive RowKey where
  | command (opc : BitVec 8)
  | event (evt : BitVec 2)
deriving DecidableEq, Repr

/-- The row of each instruction (30_encoding.md R106, R107). -/
def rowKey : Instr → RowKey
  | .nop => .command 0x00
  | .resync => .command 0x01
  | .oscShape _ _ => .command 0x10
  | .oscLevel _ _ => .command 0x11
  | .oscShaper _ _ => .command 0x12
  | .oscInterval _ _ => .command 0x13
  | .oscParam0 _ _ => .command 0x14
  | .oscParam1 _ _ => .command 0x15
  | .unisonEn _ => .command 0x16
  | .unisonSpread _ => .command 0x17
  | .constLevel _ => .command 0x18
  | .ampMode _ => .command 0x20
  | .outputLevel _ => .command 0x21
  | .envAttack _ => .command 0x22
  | .envDecay _ => .command 0x23
  | .envRelease _ => .command 0x24
  | .envSustainLen _ => .command 0x25
  | .envSustainLvl _ => .command 0x26
  | .gateDuty _ => .command 0x27
  | .gateNoteLen _ => .command 0x28
  | .noteOn _ => .command 0x2A
  | .noteOff _ => .command 0x2B
  | .fltCutoff _ => .command 0x30
  | .fltResonance _ => .command 0x31
  | .fltPoles _ => .command 0x32
  | .lfoEnable _ _ => .command 0x40
  | .lfoFreq _ _ => .command 0x41
  | .lfoCenter _ _ => .command 0x42
  | .lfoWidth _ _ => .command 0x43
  | .lfoShape _ _ => .command 0x44
  | .bufStart => .event 1
  | .tick _ _ => .event 2
  | .bufEnd => .event 3

/-- The encoded instruction stands on its row's port, with its row's fixed bits and `RSV` zero. -/
def Statement (i : Instr) : Prop :=
  match encode i with
  | .command w => rowKey i = .command (opcField w) ∧ w.extractLsb' 32 16 = 0
  | .event e => rowKey i = .event (evtField e)

theorem opcField_commandWord (opc idx : BitVec 8) (p : Word32) : opcField (commandWord opc idx p) = opc := by
  apply BitVec.eq_of_toNat_eq
  have := opc.isLt; have := idx.isLt; have := p.isLt
  simp only [opcField, commandWord, BitVec.extractLsb'_toNat, BitVec.toNat_append]
  rw [← Nat.shiftLeft_add_eq_or_of_lt (by omega), ← Nat.shiftLeft_add_eq_or_of_lt (by omega),
    ← Nat.shiftLeft_add_eq_or_of_lt (by omega)]
  simp only [Nat.shiftLeft_eq, Nat.shiftRight_eq_div_pow]
  omega

theorem rsv_commandWord (opc idx : BitVec 8) (p : Word32) :
    (commandWord opc idx p).extractLsb' 32 16 = 0 := by
  apply BitVec.eq_of_toNat_eq
  have := opc.isLt; have := idx.isLt; have := p.isLt
  simp only [commandWord, BitVec.extractLsb'_toNat, BitVec.toNat_append]
  rw [← Nat.shiftLeft_add_eq_or_of_lt (by omega), ← Nat.shiftLeft_add_eq_or_of_lt (by omega),
    ← Nat.shiftLeft_add_eq_or_of_lt (by omega)]
  simp only [Nat.shiftLeft_eq, Nat.shiftRight_eq_div_pow]
  omega

theorem evtField_eventWord (evt e : BitVec 2) (n : BitVec 8) : evtField (eventWord evt e n) = evt := by
  apply BitVec.eq_of_toNat_eq
  have := evt.isLt; have := e.isLt; have := n.isLt
  simp only [evtField, eventWord, BitVec.extractLsb'_toNat, BitVec.toNat_append]
  rw [← Nat.shiftLeft_add_eq_or_of_lt (by omega), ← Nat.shiftLeft_add_eq_or_of_lt (by omega)]
  simp only [Nat.shiftLeft_eq, Nat.shiftRight_eq_div_pow]
  omega

theorem command_row {i : Instr} {opc idx : BitVec 8} {p : Word32}
    (h : encode i = .command (commandWord opc idx p)) (hr : rowKey i = .command opc) : Statement i := by
  simp only [Statement, h, hr, opcField_commandWord, rsv_commandWord, and_self]

theorem event_row {i : Instr} {evt e : BitVec 2} {n : BitVec 8}
    (h : encode i = .event (eventWord evt e n)) (hr : rowKey i = .event evt) : Statement i := by
  simp only [Statement, h, hr, evtField_eventWord]

theorem nop : Statement .nop := command_row rfl rfl
theorem resync : Statement .resync := command_row rfl rfl
theorem oscShape (idx : BitVec 8) (code : BitVec 4) : Statement (.oscShape idx code) := command_row rfl rfl
theorem oscLevel (idx : BitVec 8) (v : F32) : Statement (.oscLevel idx v) := command_row rfl rfl
theorem oscShaper (idx : BitVec 8) (v : F32) : Statement (.oscShaper idx v) := command_row rfl rfl
theorem oscInterval (idx : BitVec 8) (n : Word32) : Statement (.oscInterval idx n) := command_row rfl rfl
theorem oscParam0 (idx : BitVec 8) (v : F32) : Statement (.oscParam0 idx v) := command_row rfl rfl
theorem oscParam1 (idx : BitVec 8) (v : F32) : Statement (.oscParam1 idx v) := command_row rfl rfl
theorem unisonEn (b : Bool) : Statement (.unisonEn b) := command_row rfl rfl
theorem unisonSpread (v : F32) : Statement (.unisonSpread v) := command_row rfl rfl
theorem constLevel (b : Bool) : Statement (.constLevel b) := command_row rfl rfl
theorem ampMode (b : Bool) : Statement (.ampMode b) := command_row rfl rfl
theorem outputLevel (v : F32) : Statement (.outputLevel v) := command_row rfl rfl
theorem envAttack (ms : Word32) : Statement (.envAttack ms) := command_row rfl rfl
theorem envDecay (ms : Word32) : Statement (.envDecay ms) := command_row rfl rfl
theorem envRelease (ms : Word32) : Statement (.envRelease ms) := command_row rfl rfl
theorem envSustainLen (ms : Word32) : Statement (.envSustainLen ms) := command_row rfl rfl
theorem envSustainLvl (v : F32) : Statement (.envSustainLvl v) := command_row rfl rfl
theorem gateDuty (v : F32) : Statement (.gateDuty v) := command_row rfl rfl
theorem gateNoteLen (ms : Word32) : Statement (.gateNoteLen ms) := command_row rfl rfl
theorem noteOn (n : BitVec 8) : Statement (.noteOn n) := command_row rfl rfl
theorem noteOff (n : BitVec 8) : Statement (.noteOff n) := command_row rfl rfl
theorem fltCutoff (v : F32) : Statement (.fltCutoff v) := command_row rfl rfl
theorem fltResonance (v : F32) : Statement (.fltResonance v) := command_row rfl rfl
theorem fltPoles (p : Word32) : Statement (.fltPoles p) := command_row rfl rfl
theorem lfoEnable (idx : BitVec 8) (b : Bool) : Statement (.lfoEnable idx b) := command_row rfl rfl
theorem lfoFreq (idx : BitVec 8) (v : F32) : Statement (.lfoFreq idx v) := command_row rfl rfl
theorem lfoCenter (idx : BitVec 8) (v : F32) : Statement (.lfoCenter idx v) := command_row rfl rfl
theorem lfoWidth (idx : BitVec 8) (v : F32) : Statement (.lfoWidth idx v) := command_row rfl rfl
theorem lfoShape (idx : BitVec 8) (code : BitVec 4) : Statement (.lfoShape idx code) := command_row rfl rfl
theorem bufStart : Statement .bufStart := event_row rfl rfl
theorem tick (noteEv : BitVec 2) (noteNum : BitVec 8) : Statement (.tick noteEv noteNum) := event_row rfl rfl
theorem bufEnd : Statement .bufEnd := event_row rfl rfl

end Sys2Proof.Laws.EncodeMatchesRow
end

