-- ==== Sys2Proof/Machine/Asm.lean ====
section
/-! DEFINITION. The assembly syntax (30_encoding.md R111), the pseudo-instructions (R112) and the names
of the wave shapes (R110). None of it is part of a step. -/

namespace Sys2Proof.Machine

/-- The code of a wave-shape name, compared exactly; any other string is Sine (30_encoding.md R110, R112). -/
def shapeCodeOfName (name : String) : BitVec 4 :=
  match name with
  | "Sine" => 0
  | "Square" => 1
  | "Saw" => 2
  | "Ramp" => 3
  | "Triangle" => 4
  | "Noise" => 5
  | "Pulse" => 6
  | "SuperSaw" => 7
  | "FM" => 8
  | "AM" => 9
  | _ => 0

/-- The pseudo-instructions of 30_encoding.md R112. -/
inductive Pseudo where
  | oscShapeName (idx : BitVec 8) (name : String)
  | lfoShapeName (idx : BitVec 8) (name : String)
  | render (n : Nat)
  | resyncOscillators
  | updateFilterCutoffValue (v : F32)
  | updateEnvelopeAttack (ms : Word32)
  | midiNoteOn (n : BitVec 8)
deriving DecidableEq, Repr

/-- The expansion of a pseudo-instruction (30_encoding.md R112). -/
def expand : Pseudo → List Instr
  | .oscShapeName idx name => [.oscShape idx (shapeCodeOfName name)]
  | .lfoShapeName idx name => [.lfoShape idx (shapeCodeOfName name)]
  | .render n => .bufStart :: (List.replicate n (.tick 0 0) ++ [.bufEnd])
  | .resyncOscillators => [.resync]
  | .updateFilterCutoffValue v => [.fltCutoff v]
  | .updateEnvelopeAttack ms => [.envAttack ms]
  | .midiNoteOn n => [.noteOn n]

/-- The value of a decimal digit. -/
def digitOf (c : Char) : Option Nat :=
  if 48 ≤ c.toNat ∧ c.toNat ≤ 57 then some (c.toNat - 48) else none

/-- Digits read onto an accumulated value; `none` at anything but a digit. -/
def digitsFrom : List Char → Nat → Option Nat
  | [], acc => some acc
  | c :: cs, acc =>
    match digitOf c with
    | some d => digitsFrom cs (10 * acc + d)
    | none => none

/-- An unsigned decimal integer: one digit at least. -/
def natOperand (cs : List Char) : Option Nat := if cs.isEmpty then none else digitsFrom cs 0

/-- A leading minus sign, and what follows it. -/
def splitSign : List Char → Bool × List Char
  | '-' :: cs => (true, cs)
  | cs => (false, cs)

/-- An `I` operand: a decimal integer in the range of an i32 (30_encoding.md R111). -/
def intOperand (t : String) : Option Word32 :=
  match natOperand (splitSign t.toList).2 with
  | none => none
  | some n =>
    let v : Int := if (splitSign t.toList).1 then -(n : Int) else (n : Int)
    if -2147483648 ≤ v ∧ v ≤ 2147483647 then some (BitVec.ofInt 32 v) else none

/-- An unsigned operand below `2 ^ w`: `IDX`, `N8`, `C4`, `P3`. -/
def uintOperand (w : Nat) (t : String) : Option (BitVec w) :=
  match natOperand t.toList with
  | some n => if n < 2 ^ w then some (BitVec.ofNat w n) else none
  | none => none

/-- A `B` operand: 0 or 1 (30_encoding.md R111). -/
def bitOperand (t : String) : Option Bool :=
  match t with
  | "0" => some false
  | "1" => some true
  | _ => none

/-- An `F` operand: a decimal number, assembled to the nearest binary32, ties to even (30_encoding.md R111). -/
def floatOperand (t : String) : Option F32 :=
  let cs := (splitSign t.toList).2
  let whole := cs.takeWhile (· != '.')
  let part := (cs.dropWhile (· != '.')).drop 1
  match natOperand whole, digitsFrom (whole ++ part) 0 with
  | some _, some n =>
    some (F32.pack (splitSign t.toList).1 (F32.roundMag (n * F32.oneUnits) (10 ^ part.length)))
  | _, _ => none

/-- A quoted name operand, as the tokeniser leaves it: the opening quote and the text. -/
def nameOperand (t : String) : Option String :=
  match t.toList with
  | c :: cs => if c.toNat = 34 then some (String.ofList cs) else none
  | [] => none

/-- A separator between operands: space, tab, comma, and the parentheses of the source's own spelling. -/
def isSeparator (c : Char) : Bool :=
  c == ' ' || c.toNat == 9 || c == ',' || c == '(' || c == ')'

/-- The word read so far, if there is one, put before the words that follow. -/
def pushWord (cur : List Char) (rest : List String) : List String :=
  if cur.isEmpty then rest else String.ofList cur.reverse :: rest

/-- The words of a line up to a comment's `;` (30_encoding.md R111); a quoted name is one word. -/
def wordsOf : List Char → List Char → Bool → List String
  | [], cur, _ => pushWord cur []
  | c :: cs, cur, quoted =>
    if quoted then
      if c.toNat = 34 then pushWord cur (wordsOf cs [] false) else wordsOf cs (c :: cur) true
    else if c == ';' then pushWord cur []
    else if c.toNat = 34 then pushWord cur (wordsOf cs [c] true)
    else if isSeparator c then pushWord cur (wordsOf cs [] false)
    else wordsOf cs (c :: cur) false

/-- Operations without an operand (30_encoding.md R111). -/
def asm0 (m : String) : Option (List Instr) :=
  match m with
  | "NOP" => some [.nop]
  | "RESYNC" => some [.resync]
  | "ResyncOscillators" => some (expand .resyncOscillators)
  | "BUF_START" => some [.bufStart]
  | "TICK" => some [.tick 0 0]
  | "BUF_END" => some [.bufEnd]
  | _ => none

/-- Operations with one operand (30_encoding.md R111). -/
def asm1 (m a : String) : Option (List Instr) :=
  match m with
  | "UNISON_EN" => (bitOperand a).map fun b => [.unisonEn b]
  | "UNISON_SPREAD" => (floatOperand a).map fun v => [.unisonSpread v]
  | "CONST_LEVEL" => (bitOperand a).map fun b => [.constLevel b]
  | "AMP_MODE" => (bitOperand a).map fun b => [.ampMode b]
  | "OUTPUT_LEVEL" => (floatOperand a).map fun v => [.outputLevel v]
  | "ENV_ATTACK" => (intOperand a).map fun n => [.envAttack n]
  | "ENV_DECAY" => (intOperand a).map fun n => [.envDecay n]
  | "ENV_RELEASE" => (intOperand a).map fun n => [.envRelease n]
  | "ENV_SUSTAIN_LEN" => (intOperand a).map fun n => [.envSustainLen n]
  | "ENV_SUSTAIN_LVL" => (floatOperand a).map fun v => [.envSustainLvl v]
  | "GATE_DUTY" => (floatOperand a).map fun v => [.gateDuty v]
  | "GATE_NOTE_LEN" => (intOperand a).map fun n => [.gateNoteLen n]
  | "NOTE_ON" => (uintOperand 8 a).map fun n => [.noteOn n]
  | "NOTE_OFF" => (uintOperand 8 a).map fun n => [.noteOff n]
  | "FLT_CUTOFF" => (floatOperand a).map fun v => [.fltCutoff v]
  | "FLT_RESONANCE" => (floatOperand a).map fun v => [.fltResonance v]
  | "FLT_POLES" => (uintOperand 32 a).map fun n => [.fltPoles n]
  | "RENDER" => (natOperand a.toList).map fun n => expand (.render n)
  | "UpdateFilterCutoffValue" => (floatOperand a).map fun v => expand (.updateFilterCutoffValue v)
  | "UpdateEnvelopeAttack" => (intOperand a).map fun n => expand (.updateEnvelopeAttack n)
  | "MidiNoteOn" => (uintOperand 8 a).map fun n => expand (.midiNoteOn n)
  | _ => none

/-- Two operands read in order. -/
def operands {α β γ : Type} (x : Option α) (y : Option β) (f : α → β → γ) : Option γ :=
  match x, y with
  | some a, some b => some (f a b)
  | _, _ => none

/-- Operations with two operands, `IDX` first, and `TICK on n`, `TICK off n` (30_encoding.md R111). -/
def asm2 (m a b : String) : Option (List Instr) :=
  match m with
  | "OSC_SHAPE" => operands (uintOperand 8 a) (uintOperand 4 b) fun i c => [.oscShape i c]
  | "OSC_LEVEL" => operands (uintOperand 8 a) (floatOperand b) fun i v => [.oscLevel i v]
  | "OSC_SHAPER" => operands (uintOperand 8 a) (floatOperand b) fun i v => [.oscShaper i v]
  | "OSC_INTERVAL" => operands (uintOperand 8 a) (intOperand b) fun i n => [.oscInterval i n]
  | "OSC_PARAM0" => operands (uintOperand 8 a) (floatOperand b) fun i v => [.oscParam0 i v]
  | "OSC_PARAM1" => operands (uintOperand 8 a) (floatOperand b) fun i v => [.oscParam1 i v]
  | "LFO_ENABLE" => operands (uintOperand 8 a) (bitOperand b) fun i v => [.lfoEnable i v]
  | "LFO_FREQ" => operands (uintOperand 8 a) (floatOperand b) fun i v => [.lfoFreq i v]
  | "LFO_CENTER" => operands (uintOperand 8 a) (floatOperand b) fun i v => [.lfoCenter i v]
  | "LFO_WIDTH" => operands (uintOperand 8 a) (floatOperand b) fun i v => [.lfoWidth i v]
  | "LFO_SHAPE" => operands (uintOperand 8 a) (uintOperand 4 b) fun i c => [.lfoShape i c]
  | "OSC_SHAPE_NAME" =>
    operands (uintOperand 8 a) (nameOperand b) fun i n => expand (.oscShapeName i n)
  | "LFO_SHAPE_NAME" =>
    operands (uintOperand 8 a) (nameOperand b) fun i n => expand (.lfoShapeName i n)
  | "TICK" =>
    if a = "on" then (uintOperand 8 b).map fun n => [.tick 1 n]
    else if a = "off" then (uintOperand 8 b).map fun n => [.tick 2 n]
    else none
  | _ => none

/-- A line of assembly (30_encoding.md R111): its instructions in order (none for a blank line or a
comment, several for `RENDER`), or nothing if the line has another form. -/
def asmLine (line : String) : Option (List Instr) :=
  match wordsOf line.toList [] false with
  | [] => some []
  | [m] => asm0 m
  | [m, a] => asm1 m a
  | [m, a, b] => asm2 m a b
  | _ => none

/-- A line of assembly as the words and event codes of its instructions. -/
def assemble (line : String) : Option (List PortWord) := (asmLine line).map (List.map encode)

end Sys2Proof.Machine
end

