-- ==== Sys2Proof/Tests/Slice0.lean ====
section
/-! SUPPORT. Tests: the well-formedness checks, the decoding of every row, at most two small tests for an
instruction, and the witnesses of the hypotheses of the statements. Expected values are those of
spec/95_test_vectors.md (cited as 95), never the model's own answers. -/

namespace Sys2Proof.Tests

-- One proof after another: as tasks, some two hundred evaluations ask for more threads than memory allows.
set_option Elab.async false

open Sys2Proof.Machine

/-! ### Helpers -/

/-- The next state of an outcome, the reset state if there is none. -/
def after (o : Host.Outcome State Fault Refusal) : State :=
  match o with
  | .next t => t
  | .fault _ => State.reset
  | .refused _ => State.reset

/-- The state after a command word executed alone. -/
def afterWord (w : CommandWord) (s : State) : State := after (exec (decodeCommand w) s)

/-- The record a frame answers with. -/
def recordOf (s : State) : Option OutRecord := (after (exec (.tick 0 0) s)).out.getLast?

/-- The reset state inside a buffer. -/
def inBuf : State := { State.reset with inBuffer := true }

/-- A slot with a shape, full level and a phase. -/
def slotAt (sh : Shape) (p : F32) : Slot :=
  { Slot.reset with shape := sh, level := F32.one, ph := zeroPhases.set 0 p }

/-- Inside a buffer, note 69, slot 1 as given. -/
def playing (sl : Slot) : State := { inBuf with curNote := 69, slots := inBuf.slots.set 1 sl }

/-- `Y[1]` of the next frame. -/
def y1 (s : State) : Option F32 := (recordOf s).map fun r => r.y[1]

/-- The default parameters at 8000 Hz (95 sections 2.9, 2.10). -/
def at8k (s : State) : State := { s with cfg := { s.cfg with sampleRate := ⟨0x45FA0000⟩ } }

/-- The envelope of 95 section 2.9 vector A, before its trigger. -/
def vectorA : State :=
  at8k { inBuf with attackMs := 1, decayMs := 2, sustainMs := 1, releaseMs := 1, sustainDb := ⟨0x41A00000⟩,
                    curNote := 60, noteState := .noteHold, envExt := .playing }

/-! ### Well-formedness: one ill-formed term for each check, which the check refuses -/

theorem test_wf_slot_index : Instr.wf (.oscLevel 4 F32.one) = false := by decide
theorem test_wf_lfo_index : Instr.wf (.lfoEnable 8 true) = false := by decide
theorem test_wf_nan_payload : Instr.wf (.fltCutoff ⟨0x7FC00000⟩) = false := by decide
theorem test_wf_inf_payload : Instr.wf (.oscLevel 1 ⟨0xFF800000⟩) = false := by decide
theorem test_wf_poles : Instr.wf (.fltPoles 4) = false := by decide
theorem test_wf_poles_all_bits : Instr.wf (.fltPoles 0x80000001) = false := by decide
theorem test_wf_note_ev : Instr.wf (.tick 3 69) = false := by decide
theorem test_wf_accepts : Instr.wf (.oscLevel 3 F32.one) = true ∧ Instr.wf (.lfoFreq 7 F32.zero) = true ∧
    Instr.wf (.fltPoles 3) = true ∧ Instr.wf (.tick 2 69) = true := by decide

/-! ### Decoding: a word of every row, as 95 sections 2.1 and 2.2 write it -/

theorem test_decode_nop : decodeCommand 0x0000000000000000 = .nop := by decide
theorem test_decode_unlisted : decodeCommand 0xFF12345678ABCDEF = .nop ∧
    decodeCommand 0x0200000000000000 = .nop ∧ decodeCommand 0x2900000000000001 = .nop := by decide
theorem test_decode_resync : decodeCommand 0x01FFFFFFFFFFFFFF = .resync := by decide
theorem test_decode_oscShape : decodeCommand 0x1002000000000006 = .oscShape 2 6 := by decide
theorem test_decode_oscShape_unread : decodeCommand 0x10020000FFFFFFF7 = .oscShape 2 7 := by decide
theorem test_decode_oscLevel : decodeCommand 0x1103FFFF3F000000 = .oscLevel 3 ⟨0x3F000000⟩ := by decide
theorem test_decode_oscShaper : decodeCommand 0x120000003F733333 = .oscShaper 0 ⟨0x3F733333⟩ := by decide
theorem test_decode_oscInterval : decodeCommand 0x13000000FFFFFFF4 = .oscInterval 0 (-12) := by decide
theorem test_decode_oscParam0 : decodeCommand 0x140100003E800000 = .oscParam0 1 ⟨0x3E800000⟩ := by decide
theorem test_decode_oscParam1 : decodeCommand 0x1501000040000000 = .oscParam1 1 ⟨0x40000000⟩ := by decide
theorem test_decode_unisonEn : decodeCommand 0x16FF000000000001 = .unisonEn true ∧
    decodeCommand 0x16000000FFFFFFFE = .unisonEn false := by decide
theorem test_decode_unisonSpread : decodeCommand 0x170000003CA3D70A = .unisonSpread ⟨0x3CA3D70A⟩ := by decide
theorem test_decode_constLevel : decodeCommand 0x1800000000000001 = .constLevel true := by decide
theorem test_decode_ampMode : decodeCommand 0x2000000000000000 = .ampMode false := by decide
theorem test_decode_outputLevel : decodeCommand 0x21000000C1200000 = .outputLevel ⟨0xC1200000⟩ := by decide
theorem test_decode_envAttack : decodeCommand 0x2200000000000064 = .envAttack 100 := by decide
theorem test_decode_envDecay : decodeCommand 0x230000000000012C = .envDecay 300 := by decide
theorem test_decode_envRelease : decodeCommand 0x24000000000000C8 = .envRelease 200 := by decide
theorem test_decode_envSustainLen : decodeCommand 0x250000000000012C = .envSustainLen 300 := by decide
theorem test_decode_envSustainLvl : decodeCommand 0x2600000040C00000 = .envSustainLvl ⟨0x40C00000⟩ := by
  decide
theorem test_decode_gateDuty : decodeCommand 0x270000003F000000 = .gateDuty ⟨0x3F000000⟩ := by decide
theorem test_decode_gateNoteLen : decodeCommand 0x2800000000000320 = .gateNoteLen 800 := by decide
theorem test_decode_noteOn : decodeCommand 0x2A00000000000145 = .noteOn 69 := by decide
theorem test_decode_noteOff : decodeCommand 0x2B00000000000045 = .noteOff 69 := by decide
theorem test_decode_fltCutoff : decodeCommand 0x30000000447A0000 = .fltCutoff ⟨0x447A0000⟩ := by decide
theorem test_decode_fltResonance : decodeCommand 0x310000003F000000 = .fltResonance ⟨0x3F000000⟩ := by decide
theorem test_decode_fltPoles : decodeCommand 0x32FFFFFF00000003 = .fltPoles 3 := by decide
theorem test_decode_lfoEnable : decodeCommand 0x4002000000000001 = .lfoEnable 2 true := by decide
theorem test_decode_lfoFreq : decodeCommand 0x4102000040A00000 = .lfoFreq 2 ⟨0x40A00000⟩ := by decide
theorem test_decode_lfoCenter : decodeCommand 0x420000003F800000 = .lfoCenter 0 ⟨0x3F800000⟩ := by decide
theorem test_decode_lfoWidth : decodeCommand 0x430400003DCCCCCD = .lfoWidth 4 ⟨0x3DCCCCCD⟩ := by decide
theorem test_decode_lfoShape : decodeCommand 0x4402000000000004 = .lfoShape 2 4 := by decide
theorem test_decode_bufStart : decodeEvent 0b010000000000 = some .bufStart := by decide
theorem test_decode_tick : decodeEvent 0x945 = some (.tick 1 69) ∧ decodeEvent 0xA45 = some (.tick 2 69) := by
  decide
theorem test_decode_bufEnd : decodeEvent 0b110000000000 = some .bufEnd := by decide
theorem test_decode_idle : decodeEvent 0b001111111111 = none := by decide
theorem test_decode_table_word : decodeTableWord 64 0x2A00000000000045 = some (.noteOn 69) ∧
    decodeTableWord 16 0x945 = some (.tick 1 69) := by decide

/-! ### Commands: each word executed alone on the reset state (95 section 2.1, section 2.7) -/

theorem test_nop : exec (decodeCommand 0xFF12345678ABCDEF) State.reset = .next State.reset := rfl
theorem test_oscLevel : (afterWord 0x1103FFFF3F000000 State.reset).slots[3].level = ⟨0x3F000000⟩ := by
  decide +kernel
theorem test_oscLevel_negative : (afterWord 0x11010000BF800000 State.reset).slots[1].level = ⟨0⟩ := by
  decide +kernel
theorem test_oscLevel_nan : afterWord 0x110100007FC00000 State.reset = State.reset := by decide +kernel
theorem test_oscLevel_index : afterWord 0x1104ABCD3F800000 State.reset = State.reset := by decide +kernel
theorem test_oscShaper_high :
    (afterWord 0x1200000040000000 State.reset).slots[0].shaper = ⟨0x3F666666⟩ := by decide +kernel
theorem test_oscShape_fallback :
    (afterWord 0x100200000000000A State.reset).slots[2].shape = .sine := by decide +kernel
theorem test_oscShape_zeroes_phase :
    (afterWord 0x1001000000000000 (playing (slotAt .sine F32.half))).slots[1].ph[0] = ⟨0⟩ := by
  decide +kernel
theorem test_oscInterval :
    (afterWord 0x13000000FFFFFFF4 State.reset).slots[0].interval = 0xFFFFFFF4 := by decide +kernel
theorem test_oscParam0 : (afterWord 0x140100003E800000 State.reset).slots[1].p0 = ⟨0x3E800000⟩ := by
  decide +kernel
theorem test_oscParam1 : (afterWord 0x1501000040000000 State.reset).slots[1].p1 = ⟨0x40000000⟩ := by
  decide +kernel
theorem test_unisonEn : (afterWord 0x1600000000000003 State.reset).unisonEn = true := by decide +kernel
theorem test_unisonSpread :
    (afterWord 0x170000003CA3D70A State.reset).unisonSpread = ⟨0x3CA3D70A⟩ := by decide +kernel
theorem test_constLevel : (afterWord 0x1800000000000001 State.reset).constLevel = true := by decide +kernel
theorem test_resync_slots :
    (afterWord 0x0100000000000000 (playing (slotAt .saw F32.half))).slots[1].ph[0] = ⟨0⟩ := by
  decide +kernel
theorem test_resync_not_lfos :
    (afterWord 0x0100000000000000
      (State.reset.setLfo 4 { Lfo.reset with ph := zeroPhases.set 0 F32.half })).lfos[4].ph[0] =
      ⟨0x3F000000⟩ := by decide +kernel
theorem test_ampMode : (afterWord 0x2000000000000000 State.reset).ampMode = .gate := by decide +kernel
theorem test_outputLevel_raised :
    (afterWord 0x21000000C2C80000 State.reset).outputLevel = ⟨0xC28C0000⟩ := by decide +kernel
theorem test_envAttack : (afterWord 0x2200000000000064 State.reset).attackMs = 100 := by decide +kernel
theorem test_envAttack_negative : (afterWord 0x2200000080000000 State.reset).attackMs = 0 := by
  decide +kernel
theorem test_envDecay : (afterWord 0x230000000000012C State.reset).decayMs = 300 := by decide +kernel
theorem test_envRelease : (afterWord 0x24000000000000C8 State.reset).releaseMs = 200 := by decide +kernel
theorem test_envSustainLen : (afterWord 0x250000000000012C State.reset).sustainMs = 300 := by decide +kernel
theorem test_envSustainLvl_negative :
    (afterWord 0x26000000BF800000 State.reset).sustainDb = ⟨0⟩ := by decide +kernel
theorem test_gateDuty_high :
    (afterWord 0x270000003F800000 State.reset).gateDuty = ⟨0x3F666666⟩ := by decide +kernel
theorem test_gateNoteLen : (afterWord 0x2800000000000320 State.reset).gateLenMs = 800 := by decide +kernel
theorem test_noteOn : (afterWord 0x2A00000000000145 State.reset).curNote = 69 ∧
    (afterWord 0x2A00000000000145 State.reset).noteState = .noteOn := by decide +kernel
theorem test_noteOn_rest : (afterWord 0x2A000000000000C8 State.reset).curNote = 128 ∧
    (afterWord 0x2A000000000000C8 State.reset).noteState = .rest := by decide +kernel
theorem test_noteOff_current : (afterWord 0x2B0000000000003C vectorA).noteState = .noteOff := by decide +kernel
theorem test_noteOff_other : (afterWord 0x2B0000000000003D vectorA).noteState = .noteHold := by decide +kernel
theorem test_fltCutoff_negative : (afterWord 0x30000000BF800000 State.reset).fltCutoff = ⟨0⟩ := by
  decide +kernel
theorem test_fltResonance_high : (afterWord 0x3100000040000000 State.reset).fltQ = ⟨0x3F800000⟩ := by
  decide +kernel
theorem test_fltPoles : (afterWord 0x3200000100000003 State.reset).fltPoles = .three := by decide +kernel
theorem test_fltPoles_ignored : (afterWord 0x3200000080000001 State.reset) = State.reset := by decide +kernel
theorem test_lfoEnable : (afterWord 0x4007000000000001 State.reset).lfos[7].en = true := by decide +kernel
theorem test_lfoEnable_index : (afterWord 0x4008000000000001 State.reset) = State.reset := by decide +kernel
theorem test_lfoFreq_negative : (afterWord 0x41000000BF800000 State.reset).lfos[0].freq = ⟨0⟩ := by
  decide +kernel
theorem test_lfoCenter : (afterWord 0x420000003F800000 State.reset).lfos[0].center = ⟨0x3F800000⟩ := by
  decide +kernel
theorem test_lfoWidth : (afterWord 0x430400003DCCCCCD State.reset).lfos[4].width = ⟨0x3DCCCCCD⟩ := by
  decide +kernel
theorem test_lfoShape : (afterWord 0x4402000000000004 State.reset).lfos[2].shape = .triangle := by
  decide +kernel

/-! ### Conversions (95 section 2.3) -/

theorem test_samples : samples Config.default 100 = 4410 ∧ samples Config.default 800 = 35280 ∧
    samples Config.default (-5) = 0 ∧ samples Config.default 2147483647 = 4294967295 := by decide +kernel
theorem test_roundU32 : F32.roundU32 ⟨0x3F000000⟩ = 1 ∧ F32.roundU32 ⟨0x40200000⟩ = 3 ∧
    F32.roundU32 ⟨0x3EFFFFFF⟩ = 0 ∧ F32.roundU32 ⟨0x7FC00000⟩ = 0 ∧
    F32.roundU32 ⟨0x4F7FFFFF⟩ = 4294967040 := by decide +kernel
theorem test_wrap : F32.wrap ⟨0x3FA00000⟩ = ⟨0x3E800000⟩ ∧ F32.wrap ⟨0xBE800000⟩ = ⟨0x3F400000⟩ ∧
    F32.wrap ⟨0xB089705F⟩ = ⟨0⟩ ∧ F32.wrap ⟨0x7F800000⟩ = ⟨0⟩ := by decide +kernel

/-! ### Frames (95 sections 2.4 to 2.13) -/

/-- 95 section 2.13: the first frame after reset. -/
theorem test_tick_silent : recordOf inBuf = some
    { sig := ⟨0⟩, amp := .stopped, noteAdvance := false, lfoPan := none, lfoTrem := none, lfoPhaser := none,
      lfoFlt := none, oscMod := #v[none, none, none, none], mix := ⟨0⟩, y := #v[⟨0⟩, ⟨0⟩, ⟨0⟩, ⟨0⟩] } := by
  decide +kernel
/-- 95 section 2.13: refused in a gap. -/
theorem test_tick_refused : exec (.tick 0 0) State.reset = .next State.reset := rfl
theorem test_bufStart : (after (exec .bufStart State.reset)).inBuffer = true := rfl
theorem test_bufEnd : (after (exec .bufEnd inBuf)).inBuffer = false := rfl

/-- 95 section 2.4. -/
theorem test_noteFreq : noteFreq 1 (playing Slot.reset) = ⟨0x43DC0000⟩ ∧
    noteFreq 1 (playing { Slot.reset with interval := -12 }) = ⟨0x435C0000⟩ ∧
    noteFreq 1 (playing { Slot.reset with interval := 2147483647 }) = ⟨0⟩ ∧
    noteFreq 1 { inBuf with slots := inBuf.slots.set 1 { Slot.reset with interval := -12 } } = ⟨0⟩ := by
  decide +kernel
/-- 95 section 2.5: spread 0.02 on 440 Hz. -/
theorem test_unison :
    unison 0 ⟨0x43DC0000⟩ { inBuf with unisonEn := true, unisonSpread := ⟨0x3CA3D70A⟩ } = ⟨0x43D9CCCD⟩ ∧
    unison 3 ⟨0x43DC0000⟩ { inBuf with unisonEn := true, unisonSpread := ⟨0x3CA3D70A⟩ } = ⟨0x43DE3333⟩ := by
  decide +kernel

/-- 95 section 2.6: the value of a shape at `f = 5512.5` from a given carrier phase, the modulator at 0. -/
def waveAt (sh : Shape) (p : F32) (p0 p1 : F32) (m : Option F32) : F32 :=
  (wave Config.default sh (zeroPhases.set 0 p) ⟨0x45AC4400⟩ m p0 p1 0).w
theorem test_wave_sine : waveAt .sine ⟨0x3E800000⟩ ⟨0⟩ ⟨0⟩ none = F32.one := by decide +kernel
theorem test_wave_square : waveAt .square ⟨0x3F000000⟩ ⟨0⟩ ⟨0⟩ none = F32.negOne := by decide +kernel
theorem test_wave_saw : waveAt .saw ⟨0x3F400000⟩ ⟨0⟩ ⟨0⟩ none = ⟨0xBF000000⟩ := by decide +kernel
theorem test_wave_ramp : waveAt .ramp ⟨0x3E000000⟩ ⟨0⟩ ⟨0⟩ none = ⟨0xBF400000⟩ := by decide +kernel
theorem test_wave_triangle : waveAt .triangle ⟨0x3F600000⟩ ⟨0⟩ ⟨0⟩ none = ⟨0xBF000000⟩ := by decide +kernel
theorem test_wave_pulse : waveAt .pulse ⟨0x3E800000⟩ ⟨0x3E800000⟩ ⟨0⟩ none = F32.negOne ∧
    waveAt .pulse ⟨0x3EC00000⟩ ⟨0x3E800000⟩ ⟨0⟩ (some ⟨0x3E800000⟩) = F32.one := by decide +kernel
theorem test_wave_fm : waveAt .fm ⟨0x3E800000⟩ ⟨0x40000000⟩ ⟨0x3E800000⟩ none = F32.one := by decide +kernel
/-- Row `p0 = 2.0, p1 = 0.5`, frame 2 (the modulator at a zero of the sine). -/
theorem test_wave_am : waveAt .am ⟨0x3E800000⟩ ⟨0x40000000⟩ ⟨0x3F000000⟩ none = ⟨0x3F2AAAAB⟩ := by decide +kernel
/-- `f = 5512.5` moves a phase by exactly 0.125, with `m = -1` back from 0 to 0.875. -/
theorem test_wave_phase :
    (wave Config.default .saw zeroPhases ⟨0x45AC4400⟩ none F32.zero F32.zero 0).ph[0] = ⟨0x3E000000⟩ ∧
    (wave Config.default .saw zeroPhases ⟨0x45AC4400⟩ (some F32.negOne) F32.zero F32.zero 0).ph[0] =
      ⟨0x3F600000⟩ := by decide +kernel
/-- SuperSaw at 440 Hz, frame 0. -/
theorem test_wave_superSaw :
    (wave Config.default .superSaw zeroPhases ⟨0x43DC0000⟩ none F32.zero F32.zero 0).w = F32.one ∧
    (wave Config.default .superSaw zeroPhases ⟨0x43DC0000⟩ none F32.zero F32.zero 0).ph =
      #v[⟨0x3C21D574⟩, ⟨0x3C2260F2⟩, ⟨0x3C22EC70⟩, ⟨0x3C2377EE⟩, ⟨0x3C24036D⟩, ⟨0x3C248EEA⟩, ⟨0x3C251A69⟩] := by
  decide +kernel
/-- Noise takes a draw and moves no phase. -/
theorem test_wave_noise : (wave Config.default .noise zeroPhases F32.one none F32.zero F32.zero 5).ph = zeroPhases ∧
    (wave Config.default .noise zeroPhases F32.one none F32.zero F32.zero 5).draws = 6 := ⟨rfl, rfl⟩

/-- 95 section 1, S4. -/
theorem test_sat : sat ⟨0x3F000000⟩ ⟨0x3F000000⟩ = ⟨0x3F400000⟩ ∧ sat ⟨0x3F666666⟩ ⟨0x3DCCCCCD⟩ = ⟨0x3F2DB6DA⟩ ∧
    sat ⟨0x3F666666⟩ ⟨0xBF000000⟩ = ⟨0xBF733333⟩ ∧ sat ⟨0⟩ ⟨0x3E99999A⟩ = ⟨0x3E99999A⟩ := by decide +kernel
/-- 95 section 2.7: level 2.0, shaper 0.5, Saw at phase 0.25. -/
theorem test_slot_level_after_saturator :
    y1 (playing { slotAt .saw ⟨0x3E800000⟩ with level := ⟨0x40000000⟩, shaper := ⟨0x3F000000⟩ }) =
      some ⟨0x3FC00000⟩ := by decide +kernel
/-- 95 section 2.7: a rest gives 0.0 and freezes the phase. -/
theorem test_slot_rest :
    y1 { playing (slotAt .saw F32.quarter) with curNote := 128 } = some ⟨0⟩ ∧
    (after (exec (.tick 0 0) { playing (slotAt .saw F32.quarter) with curNote := 128 })).slots[1].ph[0] =
      ⟨0x3E800000⟩ := by decide +kernel
/-- 95 section 2.8, last row, both settings of the flag. -/
def mixLevels (c : Bool) : State :=
  { inBuf with
      constLevel := c,
      slots := #v[{ Slot.reset with level := ⟨0x3F800000⟩ }, { Slot.reset with level := ⟨0x3F000000⟩ },
        { Slot.reset with level := ⟨0x3E800000⟩ }, { Slot.reset with level := ⟨0x3E800000⟩ }] }
theorem test_mixer :
    (mixer #v[⟨0x3E99999A⟩, ⟨0x3E4CCCCD⟩, ⟨0xBDCCCCCD⟩, ⟨0x3D4CCCCD⟩] (mixLevels false)).1 = ⟨0x3DE66667⟩ ∧
    (mixer #v[⟨0x3E99999A⟩, ⟨0x3E4CCCCD⟩, ⟨0xBDCCCCCD⟩, ⟨0x3D4CCCCD⟩] (mixLevels true)).1 = ⟨0x3E666667⟩ := by
  decide +kernel
/-- 95 section 3, program P2, frame 0. -/
def p2 : State :=
  { inBuf with
      slots := #v[{ slotAt .pulse ⟨0⟩ with level := ⟨0x3F000000⟩, p0 := ⟨0x3E800000⟩, shaper := ⟨0x3F000000⟩,
                                           interval := -12 },
        Slot.reset, Slot.reset, { slotAt .saw ⟨0⟩ with level := ⟨0x3F000000⟩ }],
      unisonEn := true, unisonSpread := ⟨0x3CA3D70A⟩, constLevel := true, fltCutoff := ⟨0x447A0000⟩,
      fltQ := ⟨0x3F000000⟩, fltPoles := .two, curNote := 69, noteState := .noteOn }
theorem test_tick_p2 : (recordOf p2).map (fun r => (r.y, r.mix, r.sig, r.amp)) =
    some (#v[⟨0x3F000000⟩, ⟨0⟩, ⟨0⟩, ⟨0x3F000000⟩], ⟨0x3F800000⟩, ⟨0x37D80A5A⟩, .playing ⟨0x3F800000⟩) := by
  decide +kernel

/-- 95 section 2.11: one pole from zero state, the bypass at 20000 Hz, the stale output at cutoff 0. -/
theorem test_filter_one_pole :
    (filterTick F32.one none { inBuf with fltCutoff := ⟨0x447A0000⟩ }).1 = ⟨0x3BA64ADD⟩ ∧
    (filterTick F32.one none { inBuf with fltCutoff := ⟨0x447A0000⟩ }).2.buf0[0] = ⟨0x3D91E531⟩ := by
  decide +kernel
theorem test_filter_bypass : filterTick ⟨0x3DFBE76D⟩ none inBuf = (⟨0x3DFBE76D⟩, inBuf) := by decide +kernel
/-- A cutoff scaled by minus infinity holds the filter (42 R251, R252; notes/assumptions/27.md), one scaled by
plus infinity bypasses it (70 R392). -/
theorem test_filter_infinite_modulation :
    (filterTick F32.one (some ⟨0xFF800000⟩) { inBuf with fltCutoff := ⟨0x447A0000⟩ }).1 = ⟨0⟩ ∧
    (filterTick F32.one (some ⟨0x7F800000⟩) { inBuf with fltCutoff := ⟨0x447A0000⟩ }).1 = F32.one := by
  decide +kernel
theorem test_filter_stale :
    (filterTick F32.negOne none
      { inBuf with fltCutoff := ⟨0⟩, buf0 := #v[⟨0x3E4B9F8A⟩, ⟨0⟩, ⟨0⟩],
                   buf1 := #v[⟨0x3CE26102⟩, ⟨0⟩, ⟨0⟩] }).1 = ⟨0x3CE26102⟩ := by decide +kernel
theorem test_filter_three_poles :
    (filterTick F32.one none { inBuf with fltCutoff := ⟨0x447A0000⟩, fltPoles := .three }).2.buf1 =
      #v[⟨0x3BA64ADD⟩, ⟨0x37D80A5A⟩, ⟨0x340C55E4⟩] := by decide +kernel

/-- 95 section 2.12, vectors A, B, C. -/
def lfoAt (i : Fin 8) (l : Lfo) : State := inBuf.setLfo i l
theorem test_lfo_value :
    (consult 2 (lfoAt 2 { Lfo.reset with en := true, freq := ⟨0x40A00000⟩, width := F32.one })).1 =
      some F32.one ∧
    (consult 2 (lfoAt 2 { Lfo.reset with en := true, freq := ⟨0x40A00000⟩, width := F32.one })).2.lfos[2].ph[0] =
      ⟨0x38EDC5B8⟩ := by decide +kernel
theorem test_lfo_square :
    (consult 4 (lfoAt 4 { Lfo.reset with en := true, shape := .square, width := ⟨0x3DCCCCCD⟩ })).1 =
      some ⟨0x3F866666⟩ := by decide +kernel
theorem test_lfo_zero_width :
    consult 5 (lfoAt 5 { Lfo.reset with en := true }) = (none, lfoAt 5 { Lfo.reset with en := true }) ∧
    (consult 1 (lfoAt 1 { Lfo.reset with en := true })).1 = some F32.one := by decide +kernel

/-- 95 section 2.9: vector A frame 0, vector B frame 3 (a note-off in Attack), vector F (no duration). -/
theorem test_adsr_attack :
    (adsrTick { vectorA with noteState := .noteOn, envExt := .stopped }).2.envLevel = ⟨0xC2750000⟩ ∧
    (adsrTick { vectorA with noteState := .noteOn, envExt := .stopped }).2.noteState = .noteHold := by
  decide +kernel
theorem test_adsr_note_off :
    (adsrTick { vectorA with noteState := .noteOff, envLevel := ⟨0xC22F0000⟩ }).2.envLevel = ⟨0xC2480000⟩ ∧
    (adsrTick { vectorA with noteState := .noteOff, envLevel := ⟨0xC22F0000⟩ }).2.envStage = .release := by
  decide +kernel
theorem test_adsr_decay :
    (adsrTick { vectorA with envStage := .decay, envLevel := ⟨0⟩ }).2.envLevel = ⟨0xBFA00000⟩ := by
  decide +kernel
theorem test_adsr_sustain_end :
    (adsrTick { vectorA with envStage := .sustain, envLevel := ⟨0xC1A00000⟩, susCnt := 7 }).2.envStage =
      .release := by decide +kernel
theorem test_adsr_release_end :
    adsrTick { vectorA with envStage := .release, envLevel := ⟨0xC27F0000⟩ } =
      (.stopped, { vectorA with envStage := .attack, envExt := .stopped }) := by decide +kernel
theorem test_adsr_clamp :
    (adsrTick { vectorA with envStage := .sustain, outputLevel := ⟨0xC1A00000⟩, envLevel := ⟨0⟩,
                             sustainMs := 100 }).2.envLevel = ⟨0xC1A00000⟩ := by decide +kernel

/-- 95 section 2.10, vectors A and B. -/
theorem test_gate_zero : gateTick { inBuf with ampMode := .gate } =
    ((.playing ⟨0x3F800000⟩, false), { inBuf with ampMode := .gate, gateState := .off, gateOnCnt := 1 }) := by
  decide +kernel
theorem test_gate_end : (gateTick { inBuf with gateState := .done, gateOnCnt := 1 }).1 = (.stopped, true) := by
  decide +kernel
theorem test_gate_maxima :
    gateOnMax (at8k { inBuf with gateLenMs := 1, gateDuty := ⟨0x3E800000⟩ }) = 2 ∧
    gateOffMax (at8k { inBuf with gateLenMs := 1, gateDuty := ⟨0x3E800000⟩ }) = 6 ∧
    gateOnMax { inBuf with gateLenMs := 10, gateDuty := ⟨0x3F666666⟩ } = 397 := by decide +kernel

/-! ### Assembly (95 sections 1 S9, 2.2) -/

theorem test_asm : assemble "OSC_LEVEL 1, 0.5" = some [.command 0x110100003F000000] ∧
    assemble "LFO_WIDTH 4, 0.1" = some [.command 0x430400003DCCCCCD] ∧
    assemble "OSC_INTERVAL 0, -12 ; one octave down" = some [.command 0x13000000FFFFFFF4] := by decide +kernel
theorem test_asm_tick : assemble "TICK on 69" = some [.event 0x945] := by decide +kernel
theorem test_asm_name : assemble "OSC_SHAPE_NAME 2, \"Saw\"" = some [.command 0x1002000000000002] ∧
    assemble "OSC_SHAPE_NAME 2, \"Sawtooth\"" = some [.command 0x1002000000000000] := by decide +kernel

/-! ### Witnesses: a concrete state and operands that meet the hypotheses of each statement -/

/-- A gap with the executor to move and two words in the queue. -/
def gap : State :=
  { State.reset with cmdq := [0x110100003F800000, 0x2A00000000000045], agenda := [.execute, .execute] }

theorem reset_legal : State.reset.Legal where
  cfg := by decide +kernel
  slots := fun i => by
    have h : State.reset.slots[i] = Slot.reset := by revert i; decide +kernel
    rw [h]
    exact ⟨by decide +kernel, by decide +kernel, by decide +kernel, by decide +kernel, by decide +kernel,
      by decide +kernel, by decide +kernel⟩
  unisonSpread := by decide +kernel
  lfos := fun i => by
    have h : State.reset.lfos[i] = Lfo.reset := by revert i; decide +kernel
    rw [h]
    exact ⟨by decide +kernel, by decide +kernel, by decide +kernel, by decide +kernel, by decide +kernel⟩
  cutoffFinite := by decide +kernel
  cutoffNonneg := by decide +kernel
  qLow := by decide +kernel
  qHigh := by decide +kernel
  outputFinite := by decide +kernel
  outputLow := by decide +kernel
  attack := by decide
  decay := by decide
  release := by decide
  sustain := by decide
  sustainDbFinite := by decide +kernel
  sustainDbNonneg := by decide +kernel
  dutyLow := by decide +kernel
  dutyHigh := by decide +kernel
  gateLen := by decide
  note := by decide
  noteRest := by decide
  envFinite := by decide +kernel
  envLow := by decide +kernel
  envStopped := fun _ => rfl
  queue := fun n h => by cases h

/-- The trigger of a note with all durations 0, in a legal state. -/
theorem triggered_legal : (State.Legal { State.reset with curNote := 69, noteState := .noteOn }) :=
  { reset_legal with note := by decide, noteRest := by decide }

theorem witness_DecodeIgnoresUnreadBits :
    ∃ w v : BitVec 64, w ≠ v ∧ w.extractLsb' 56 8 = v.extractLsb' 56 8 ∧
      (formatOf (w.extractLsb' 56 8) = .x → w.extractLsb' 48 8 = v.extractLsb' 48 8) ∧
      (formatOf (w.extractLsb' 56 8) ≠ .n → w.extractLsb' 0 32 = v.extractLsb' 0 32) :=
  ⟨0x1103FFFF3F000000, 0x110300003F000000, by decide +kernel⟩
/-- The ends of the six ranges of unlisted opcodes. -/
theorem witness_UnlistedOpcodesAreNop :
    (∀ o ∈ [0x02, 0x0F, 0x19, 0x1F, 0x29, 0x2C, 0x2F, 0x33, 0x3F, 0x45, 0xFF],
      (0x02 ≤ o ∧ o ≤ 0x0F) ∨ (0x19 ≤ o ∧ o ≤ 0x1F) ∨ o = 0x29 ∨ (0x2C ≤ o ∧ o ≤ 0x2F) ∨
        (0x33 ≤ o ∧ o ≤ 0x3F) ∨ 0x45 ≤ o) ∧
    ({ gap with cmdq := [0xFF12345678ABCDEF] } : State).inBuffer = false ∧
    ({ gap with cmdq := [0xFF12345678ABCDEF] } : State).agenda = .execute :: [.execute] ∧
    0x45 ≤ ((0xFF12345678ABCDEF : BitVec 64) >>> 56).toNat := by decide +kernel
theorem witness_EventCodes :
    ({ inBuf with agenda := [.event 0x3FF] } : State).agenda = .event (0b00#2 ++ 0b11#2 ++ 0xFF#8) :: [] := by
  decide +kernel
theorem witness_StepRunsDecoded_command :
    gap.inBuffer = false ∧ gap.agenda = .execute :: [.execute] ∧
    gap.cmdq = 0x110100003F800000 :: [0x2A00000000000045] ∧
    decodeCommand 0x110100003F800000 = .oscLevel 1 ⟨0x3F800000⟩ := by decide +kernel
theorem witness_StepRunsDecoded_event :
    ({ inBuf with agenda := [.event 0x945] } : State).agenda = .event 0x945 :: [] ∧
    decodeEvent 0x945 = some (.tick 1 69) := by decide +kernel
theorem witness_BufferHoldsCommands :
    ({ gap with inBuffer := true } : State).agenda = .execute :: [.execute] ∧
    ({ gap with inBuffer := true } : State).inBuffer = true ∧ ({ gap with cmdq := [] } : State).cmdq = [] ∧
    State.reset.agenda = [] := by decide +kernel
/-- A queue with room for two words: empty, holding one, and full; and an unbounded one. -/
def port (depth : Option Nat) (q : List CommandWord) : State :=
  { State.reset with cfg := { Config.default with fifoDepth := depth }, cmdq := q, ctrlIn := [7],
                     agenda := [.accept] }
theorem witness_ControlPortAccepts :
    (port none [1]).agenda = .accept :: [] ∧ (port none [1]).ctrlIn = 7 :: [] ∧
    (port none [1]).cfg.fifoDepth = none ∧ (port (some 2) [1]).cfg.fifoDepth = some 2 ∧
    (port (some 2) [1]).cmdq.length < 2 ∧ 2 ≤ (port (some 2) [1, 2]).cmdq.length := by decide +kernel
theorem witness_ResetValues :
    ({ gap with inBuffer := true, agenda := [.reset] } : State).agenda = .reset :: [] := rfl
/-- An index, a payload and a pole count out of their sets, at their first illegal values. -/
theorem witness_IllegalOperandsAreNop :
    ∀ i ∈ [Instr.oscInterval 4 0, .lfoShape 8 0, .gateDuty ⟨0x7F800000⟩, .fltPoles 0, .fltPoles 4],
      i.isCommand = true ∧ i.wf = false := by decide +kernel
theorem witness_QueueIsFifo : ∃ t, step gap = .next t := ⟨_, rfl⟩
theorem witness_AnyPrefixRunsInOrder :
    gap.inBuffer = false ∧ 2 ≤ gap.cmdq.length ∧ gap.agenda = List.replicate 2 .execute ++ [] := by
  decide +kernel
theorem witness_BufferSizesAreInvisible :
    inBuf.inBuffer = true ∧ (∀ e ∈ ([0x945] : List EventCode) ++ [0x800], evtField e = 2) ∧
    evtField 0xC00 = 3 ∧ evtField 0x400 = 1 ∧
    ({ inBuf with agenda := [.event 0x945, .event 0xC00, .event 0x400, .event 0x800] } : State).agenda =
      ([0x945] : List EventCode).map .event ++ [.event 0xC00, .event 0x400] ++
        ([0x800] : List EventCode).map .event ++ [] := by decide +kernel
theorem witness_SystemInstructions : State.reset.inBuffer = false ∧ inBuf.inBuffer = true := ⟨rfl, rfl⟩
theorem witness_NothingStops : ∃ t, step gap = .next t := ⟨_, rfl⟩
theorem witness_ResetIsLegal : Config.default.wf = true := by decide +kernel
theorem witness_LegalIsKept : State.reset.Legal ∧ ∃ t, step State.reset = .next t := ⟨reset_legal, _, rfl⟩
theorem witness_BufferIsASnapshot :
    inBuf.inBuffer = true ∧
    ∀ t ∈ ({ inBuf with agenda := [.accept, .event 0x945, .execute, .event 0x400, .event 0xC00] } :
      State).agenda.take 4, t.endsBuffer = false := by decide +kernel
theorem witness_CommandsKeepRunningState :
    Instr.isCommand .resync = true ∧ ∃ t, exec .resync State.reset = .next t := ⟨rfl, _, rfl⟩
theorem witness_OnlyTickAnswers :
    inBuf.inBuffer = true ∧ ({ inBuf with agenda := [.event 0x800] } : State).agenda = .event 0x800 :: [] ∧
    evtField 0x800 = 2 ∧ ∃ t, step inBuf = .next t := ⟨rfl, rfl, by decide, _, rfl⟩
theorem witness_SilentAfterReset :
    Config.default.wf = true ∧ ∀ e ∈ ([0x800, 0x845, 0xB45] : List EventCode),
      evtField e = 2 ∧ (noteEvField e = 0 ∨ noteEvField e = 3) := by
  decide +kernel
theorem witness_OscShapeAndInterval : (3 : BitVec 8).toNat < 4 ∧ (9 : BitVec 4) ≤ 9 ∧ ¬(10 : BitVec 4) ≤ 9 := by
  decide
/-- The last slot, and a finite payload at each end of the finite range. -/
theorem witness_OscF32Registers :
    (3 : BitVec 8).toNat < 4 ∧ F32.isFinite ⟨0x7F7FFFFF⟩ = true ∧ F32.isFinite ⟨0xFF7FFFFF⟩ = true := by decide
theorem witness_AmpRegisters : F32.isFinite ⟨0xC2C80000⟩ = true := by decide
theorem witness_FilterRegisters :
    F32.isFinite ⟨0x447A0000⟩ = true ∧ (1 : Word32).toNat = Poles.one.count ∧
    (3 : Word32).toNat = Poles.three.count ∧ (0 : Word32) ≠ 1 ∧ (0 : Word32) ≠ 2 ∧ (0 : Word32) ≠ 3 := by
  decide
theorem witness_LfoRegisters : (7 : BitVec 8).toNat < 8 ∧ F32.isFinite ⟨0x40A00000⟩ = true := by decide
theorem witness_TickPipeline : inBuf.inBuffer = true := rfl
theorem witness_TickFrame :
    (∃ t, exec (.tick 1 69) inBuf = .next t) ∧ inBuf.inBuffer = true ∧ inBuf.ampMode = .envelope ∧
    ({ inBuf with ampMode := .gate } : State).ampMode = .gate := ⟨⟨_, rfl⟩, rfl, rfl, rfl⟩
/-- Two states that differ outside the amplitude unit. -/
theorem witness_AmpUnitIsIsolated :
    inBuf.inBuffer = true ∧ ({ inBuf with fltQ := F32.one } : State).inBuffer = true ∧
    inBuf.ampPart = ({ inBuf with fltQ := F32.one } : State).ampPart ∧
    (∃ t, exec (.tick 1 69) inBuf = .next t) ∧
    ∃ t, exec (.tick 1 69) { inBuf with fltQ := F32.one } = .next t := ⟨rfl, rfl, rfl, ⟨_, rfl⟩, _, rfl⟩
/-- Operands with a finite and with an infinite result, a divisor that is not zero, a nearest competitor. -/
theorem witness_ArithmeticIsNearest :
    F32.isFinite ⟨0x7F7FFFFF⟩ = true ∧ (F32.add ⟨0x7F7FFFFF⟩ ⟨0x7F7FFFFF⟩).isFinite = false ∧
    (F32.add F32.one F32.one).isFinite = true ∧ F32.isFinite ⟨0x3F800001⟩ = true ∧
    F32.isZero ⟨0x00000001⟩ = false := by decide +kernel
/-- A NaN, two infinities, an infinity beside a finite value, a zero divisor, an infinite difference. -/
theorem witness_ArithmeticSpecials :
    F32.isNaN ⟨0x7FC00000⟩ = true ∧ F32.isInf ⟨0xFF800000⟩ = true ∧ F32.isNaN ⟨0xFF800000⟩ = false ∧
    F32.isFinite ⟨0x7F7FFFFF⟩ = true ∧ F32.isZero ⟨0x80000000⟩ = true ∧
    (F32.sub ⟨0xFF800000⟩ ⟨0x7F800000⟩).isNaN = false := by decide +kernel
theorem witness_FloorIsExact : F32.isFinite ⟨0xBE800000⟩ = true := by decide
theorem witness_WrapIntoUnit : F32.isFinite ⟨0x7F800000⟩ = false ∧ inUnit ⟨0x3F7FFFFF⟩ = true := by
  decide +kernel
theorem witness_NumericsAreLawful :
    inUnit ⟨0x3F7FFFFF⟩ = true ∧ F32.isFinite ⟨0xC28C0000⟩ = true ∧
    F32.le ⟨0xC28C0000⟩ ⟨0xC2700000⟩ = true := by decide +kernel
/-- The three cases of `round_u32` (a value up to 0, one at the saturation bound, one between), and the
longest negative and the zero duration. -/
theorem witness_ConversionsRound :
    F32.isFinite F32.one = true ∧ F32.le F32.zero F32.zero = true ∧
    (4294967295 * F32.oneUnits : Int) ≤ F32.units ⟨0x4F800000⟩ ∧
    ¬(4294967295 * F32.oneUnits : Int) ≤ F32.units ⟨0x4F7FFFFF⟩ ∧ F32.le ⟨0x4F7FFFFF⟩ F32.zero = false ∧
    Config.default.wf = true ∧ (0x80000000 : Word32).toInt ≤ 0 ∧ (0 : Word32).toInt ≤ 0 := by
  decide +kernel
theorem witness_SaturatorEnds :
    F32.isFinite ⟨0x7F7FFFFF⟩ = true ∧ F32.le F32.zero F32.pointNine = true ∧
    F32.le F32.pointNine F32.pointNine = true ∧ F32.le (F32.abs F32.negOne) F32.one = true := by
  decide +kernel
theorem witness_WavesAreBounded :
    (∀ k : Fin 7, inUnit (Vector.replicate 7 (⟨0x3F7FFFFF⟩ : F32))[k] = true) ∧
    F32.isFinite ⟨0xFF7FFFFF⟩ = true := by decide +kernel
theorem witness_SlotFrequency :
    (playing Slot.reset).cfg.noteFreq[69]? = some ⟨0x43DC0000⟩ := by decide +kernel
theorem witness_RestSilencesSlots :
    128 ≤ inBuf.curNote.toNat ∧ inBuf.unisonSpread.isFinite = true := by decide +kernel
theorem witness_EqualLfosStayEqual :
    ((4 : Fin 8).val < 4 ↔ (7 : Fin 8).val < 4) ∧ inBuf.lfos[(4 : Fin 8)] = inBuf.lfos[(7 : Fin 8)] ∧
    ∃ t, exec (.tick 0 0) inBuf = .next t := ⟨by decide, by decide +kernel, _, rfl⟩
/-- Integrators that differ in the inactive stages only. -/
theorem witness_InactiveStagesAreUnread :
    ∀ k : Fin 3, k.val < inBuf.fltPoles.count →
      (#v[F32.zero, F32.one, F32.one] : Vector F32 3)[k] = inBuf.buf0[k] ∧
      (#v[F32.zero, F32.two, F32.one] : Vector F32 3)[k] = inBuf.buf1[k] := by decide +kernel
theorem witness_NoteInspection : inBuf.envExt = .stopped ∧ inBuf.noteState ≠ .noteOn := by decide +kernel
/-- A held note in each stage, the trigger of a stopped envelope, a note-off in Sustain and in Release. -/
theorem witness_EnvelopeStages :
    (∀ st ∈ [EnvStage.attack, .decay, .sustain, .release],
      ({ vectorA with envStage := st } : State).envExt = .playing ∧
      ({ vectorA with envStage := st } : State).noteState = .noteHold ∧
      ({ vectorA with envStage := st } : State).envStage = st) ∧
    ({ vectorA with noteState := .noteOn, envExt := .stopped } : State).noteState = .noteOn ∧
    ∀ st ∈ [EnvStage.sustain, .release],
      ({ vectorA with noteState := .noteOff, envStage := st } : State).noteState = .noteOff ∧
      ({ vectorA with noteState := .noteOff, envStage := st } : State).envExt = .playing := by decide +kernel
theorem witness_StageOrder : vectorA.envExt = .playing ∧ vectorA.noteState = .noteHold := ⟨rfl, rfl⟩
theorem witness_EnvelopeIsBounded : State.reset.Legal := reset_legal
theorem witness_ZeroLengthEnvelope :
    State.Legal { State.reset with curNote := 69, noteState := .noteOn } ∧ State.reset.attackMs = 0 ∧
    State.reset.decayMs = 0 ∧ State.reset.sustainMs = 0 ∧ State.reset.releaseMs = 0 :=
  ⟨triggered_legal, rfl, rfl, rfl, rfl⟩
/-- At the last tick inside Sustain, N_SUSTAIN = 8. -/
theorem witness_SustainLength :
    ({ vectorA with envStage := .sustain } : State).envExt = .playing ∧
    ({ vectorA with envStage := .sustain } : State).susCnt = 0 ∧ vectorA.noteState = .noteHold ∧
    7 < max (samples vectorA.cfg vectorA.sustainMs).toNat 1 := by decide +kernel
/-- With maxima 2 and 6: the first and the last Off tick. -/
theorem witness_GateCycle :
    inBuf.gateState = .on ∧ inBuf.gateOnCnt = 0 ∧
    max (gateOnMax (at8k { inBuf with gateLenMs := 1, gateDuty := ⟨0x3E800000⟩ })).toNat 1 ≤ 2 ∧
    7 < max (gateOnMax (at8k { inBuf with gateLenMs := 1, gateDuty := ⟨0x3E800000⟩ })).toNat 1 +
      max (gateOffMax (at8k { inBuf with gateLenMs := 1, gateDuty := ⟨0x3E800000⟩ })).toNat 1 := by
  decide +kernel
theorem witness_LostTrigger :
    (127 : BitVec 8).toNat < 128 ∧ State.reset.envExt = .stopped ∧
    ∃ t u, exec (.noteOn 127) State.reset = .next t ∧ exec (.noteOff 127) t = .next u :=
  ⟨by decide, rfl, _, _, rfl, rfl⟩

end Sys2Proof.Tests
end

/-! # Arithmetic, numerics and reset (00_scope.md)

The proofs of the statements about 00_scope.md. A binary32 value is a sign and a pattern; `patMag` reads the
magnitude of a pattern and is strictly increasing, so that rounding to nearest is a fact about two
neighbouring patterns. From it follow the four operations, the conversions, `floor` and `wrap`. -/

namespace Sys2Proof.F32

/-! ### Magnitude patterns -/

/-- The magnitude, in units of 2^-149, that a pattern without its sign stands for. It is given for every
natural number, the patterns beyond the infinity's included, so that rounding can be judged before it is
capped at `infMag`. -/
def patMag (m : Nat) : Nat :=
  if m / 2 ^ 23 = 0 then m % 2 ^ 23 else (m % 2 ^ 23 + 2 ^ 23) * 2 ^ (m / 2 ^ 23 - 1)

/-- The pattern of a value without its sign. -/
def pat (a : F32) : Nat := a.bits.toNat % 2 ^ 31

theorem mag_eq_patMag (a : F32) : a.mag = patMag a.pat := by
  have he : a.pat / 2 ^ 23 = a.expo := by simp only [pat, expo]; omega
  have hf : a.pat % 2 ^ 23 = a.frac := by simp only [pat, frac]; omega
  simp only [mag, patMag, he, hf]

/-- A significand `q` of at most 24 bits shifted by `k` has the pattern `q + k * 2^23`; `q = 2^24`, the carry
of a rounding, included. -/
theorem patMag_add_mul {q k : Nat} (hq : q ≤ 2 ^ 24) (hk : k = 0 ∨ 2 ^ 23 ≤ q) :
    patMag (q + k * 2 ^ 23) = q * 2 ^ k := by
  unfold patMag
  rcases Nat.lt_or_ge q (2 ^ 23) with hsub | hnorm
  · obtain rfl : k = 0 := by omega
    have hdiv : (q + 0 * 2 ^ 23) / 2 ^ 23 = 0 := by omega
    rw [if_pos hdiv]; omega
  · rcases Nat.lt_or_ge q (2 ^ 24) with hlt | hge
    · have hdiv : (q + k * 2 ^ 23) / 2 ^ 23 = k + 1 := by omega
      have hmod : (q + k * 2 ^ 23) % 2 ^ 23 + 2 ^ 23 = q := by omega
      rw [if_neg (by omega), hdiv, hmod, Nat.add_sub_cancel]
    · obtain rfl : q = 2 ^ 24 := by omega
      have hdiv : (2 ^ 24 + k * 2 ^ 23) / 2 ^ 23 = k + 2 := by omega
      have hmod : (2 ^ 24 + k * 2 ^ 23) % 2 ^ 23 = 0 := by omega
      rw [if_neg (by omega), hdiv, hmod, show k + 2 - 1 = k + 1 from rfl, Nat.pow_succ]
      omega

/-- Every pattern is a significand below 2^24 with a shift, normal unless the shift is 0. -/
theorem exists_significand (m : Nat) :
    ∃ q k, m = q + k * 2 ^ 23 ∧ q < 2 ^ 24 ∧ (k = 0 ∨ 2 ^ 23 ≤ q) :=
  ⟨m - (m / 2 ^ 23 - 1) * 2 ^ 23, m / 2 ^ 23 - 1, by omega, by omega, by omega⟩

theorem patMag_strictMono : StrictMono patMag := by
  refine strictMono_nat_of_lt_succ fun m => ?_
  obtain ⟨q, k, rfl, hq, hk⟩ := exists_significand m
  rw [show q + k * 2 ^ 23 + 1 = (q + 1) + k * 2 ^ 23 by omega,
    patMag_add_mul (by omega) hk, patMag_add_mul (by omega) (by omega)]
  exact Nat.mul_lt_mul_of_pos_right (Nat.lt_succ_self q) (Nat.two_pow_pos k)

theorem patMag_zero : patMag 0 = 0 := rfl

theorem patMag_infMag : patMag infMag = 2 ^ 277 := by decide +kernel

/-- The threshold of overflow lies half-way between the largest finite magnitude and the infinity's. -/
theorem two_mul_overflow : 2 * (2 ^ 277 - 2 ^ 252) = patMag (infMag - 1) + patMag infMag := by
  decide +kernel

/-! ### Rounding of magnitudes -/

/-- `p` is a pattern nearest to `num/den` among all patterns, and an even one where another is as near. -/
structure NearestPat (p num den : Nat) : Prop where
  close : ∀ m, ((num : Int) - patMag p * den).natAbs ≤ ((num : Int) - patMag m * den).natAbs
  even : ∀ m, ((num : Int) - patMag p * den).natAbs = ((num : Int) - patMag m * den).natAbs →
    patMag m ≠ patMag p → p % 2 = 0

/-- Of two neighbouring patterns around `num/den`, the nearer one, in a tie the even one, is nearest. -/
theorem nearestPat_of_bracket {l p num den : Nat} (hden : 0 < den)
    (hlo : patMag l * den ≤ num) (hhi : num ≤ patMag (l + 1) * den)
    (hp : p = l ∧ (2 * num < patMag l * den + patMag (l + 1) * den ∨
            2 * num = patMag l * den + patMag (l + 1) * den ∧ l % 2 = 0) ∨
          p = l + 1 ∧ (patMag l * den + patMag (l + 1) * den < 2 * num ∨
            2 * num = patMag l * den + patMag (l + 1) * den ∧ l % 2 = 1)) :
    NearestPat p num den := by
  have hside : ∀ m, patMag m * den ≤ patMag l * den ∨ patMag (l + 1) * den ≤ patMag m * den := fun m =>
    (Nat.lt_or_ge l m).symm.imp (fun h => Nat.mul_le_mul_right den (patMag_strictMono.monotone h))
      fun h => Nat.mul_le_mul_right den (patMag_strictMono.monotone h)
  constructor
  · intro m
    simp only [← Nat.cast_mul]
    have := hside m
    rcases hp with ⟨rfl, hp⟩ | ⟨rfl, hp⟩ <;> omega
  · intro m heq hne
    have hne' : patMag m * den ≠ patMag p * den := fun h => hne (Nat.eq_of_mul_eq_mul_right hden h)
    simp only [← Nat.cast_mul] at heq
    have := hside m
    rcases hp with ⟨rfl, hp⟩ | ⟨rfl, hp⟩ <;> omega

/-- The number of low bits of `num/den` that do not fit in 24. -/
def dropped (num den : Nat) : Nat := (num / den).log2 + 1 - 24

/-- The rounded pattern before it is capped at the infinity's. -/
def roundPat (num den : Nat) : Nat :=
  let d := den * 2 ^ dropped num den
  let q := num / d
  (if d < 2 * (num % d) ∨ (2 * (num % d) = d ∧ q % 2 = 1) then q + 1 else q) + dropped num den * 2 ^ 23

theorem roundMag_eq (num den : Nat) : roundMag num den = Nat.min (roundPat num den) infMag := rfl

/-- The quotient that is kept has at most 24 bits, and all 24 unless nothing is dropped. -/
theorem quotient_bounds (num den : Nat) :
    num / (den * 2 ^ dropped num den) < 2 ^ 24 ∧
      (dropped num den = 0 ∨ 2 ^ 23 ≤ num / (den * 2 ^ dropped num den)) := by
  rw [← Nat.div_div_eq_div_mul, dropped]
  generalize num / den = t
  have hlt : t < 2 ^ (t.log2 + 1) := Nat.lt_log2_self
  refine ⟨Nat.div_lt_of_lt_mul ?_, ?_⟩
  · rw [← Nat.pow_add]
    exact hlt.trans_le (Nat.pow_le_pow_right (by omega) (by omega))
  · by_cases h : t.log2 + 1 ≤ 24
    · exact .inl (by omega)
    · refine .inr ((Nat.le_div_iff_mul_le (Nat.two_pow_pos _)).2 ?_)
      rw [← Nat.pow_add, show 23 + (t.log2 + 1 - 24) = t.log2 by omega]
      exact Nat.log2_self_le (by rintro rfl; simp at h)

theorem nearestPat_roundPat {num den : Nat} (hden : 0 < den) : NearestPat (roundPat num den) num den := by
  obtain ⟨hq, hk⟩ := quotient_bounds num den
  unfold roundPat
  generalize dropped num den = k at *
  have hd : 0 < den * 2 ^ k := Nat.mul_pos hden (Nat.two_pow_pos k)
  have hnum := Nat.div_add_mod num (den * 2 ^ k)
  have hmod := Nat.mod_lt num hd
  dsimp only
  generalize num / (den * 2 ^ k) = q at *
  generalize num % (den * 2 ^ k) = r at *
  have hlo : patMag (q + k * 2 ^ 23) * den = den * 2 ^ k * q := by
    rw [patMag_add_mul hq.le hk]; ring
  have hhi : patMag (q + k * 2 ^ 23 + 1) * den = den * 2 ^ k * q + den * 2 ^ k := by
    rw [show q + k * 2 ^ 23 + 1 = (q + 1) + k * 2 ^ 23 by omega,
      patMag_add_mul (q := q + 1) hq (by omega)]; ring
  generalize den * 2 ^ k = d at *
  refine nearestPat_of_bracket (l := q + k * 2 ^ 23) hden (by omega) (by omega) ?_
  rw [hlo, hhi]
  split
  · exact .inr ⟨by omega, by omega⟩
  · exact .inl ⟨by omega, by omega⟩

/-- A magnitude is rounded to the infinity exactly from the threshold of overflow on. -/
theorem infMag_le_roundPat_iff {num den : Nat} (hden : 0 < den) :
    infMag ≤ roundPat num den ↔ (2 ^ 277 - 2 ^ 252) * den ≤ num := by
  obtain ⟨hclose, heven⟩ := nearestPat_roundPat (num := num) hden
  have hmid := congrArg (· * den) two_mul_overflow
  have hinf : infMag = 2139095040 := rfl
  simp only [Nat.mul_assoc, Nat.add_mul] at hmid
  generalize (2 ^ 277 - 2 ^ 252) * den = half at *
  have hstep : patMag (infMag - 1) * den < patMag infMag * den :=
    Nat.mul_lt_mul_of_pos_right (patMag_strictMono (by decide)) hden
  constructor
  · intro h
    have hp := Nat.mul_le_mul_right den (patMag_strictMono.monotone h)
    have := hclose (infMag - 1)
    simp only [← Nat.cast_mul] at this
    omega
  · intro h
    by_contra hlt
    have hp : patMag (roundPat num den) * den ≤ patMag (infMag - 1) * den :=
      Nat.mul_le_mul_right den (patMag_strictMono.monotone (by omega))
    have hc := hclose infMag
    have he := heven infMag
    simp only [← Nat.cast_mul] at hc he
    have hev := he (by omega) (patMag_strictMono.injective.ne (by omega))
    have hodd : roundPat num den = infMag - 1 :=
      patMag_strictMono.injective (Nat.eq_of_mul_eq_mul_right hden (by omega))
    omega

/-! ### Patterns with a sign -/

theorem pat_lt (a : F32) : a.pat < 2 ^ 31 := Nat.mod_lt _ (Nat.two_pow_pos 31)

theorem expo_eq (a : F32) : a.expo = a.pat / 2 ^ 23 := by simp only [pat, expo]; omega

theorem frac_eq (a : F32) : a.frac = a.pat % 2 ^ 23 := by simp only [pat, frac]; omega

theorem isFinite_iff (a : F32) : a.isFinite = true ↔ a.pat < infMag := by
  have := a.pat_lt
  simp only [isFinite, infMag, expo_eq, bne_iff_ne, ne_eq]; omega

theorem isInf_iff (a : F32) : a.isInf = true ↔ a.pat = infMag := by
  have := a.pat_lt
  simp only [isInf, infMag, expo_eq, frac_eq, Bool.and_eq_true, beq_iff_eq]; omega

theorem isNaN_iff (a : F32) : a.isNaN = true ↔ infMag < a.pat := by
  have := a.pat_lt
  simp only [isNaN, infMag, expo_eq, frac_eq, Bool.and_eq_true, beq_iff_eq, bne_iff_ne, ne_eq]; omega

theorem isZero_iff (a : F32) : a.isZero = true ↔ a.pat = 0 := by
  simp only [isZero, expo_eq, frac_eq, Bool.and_eq_true, beq_iff_eq]; omega

theorem sign_eq_true_iff (a : F32) : a.sign = true ↔ 2 ^ 31 ≤ a.bits.toNat := by
  rw [sign, BitVec.msb_eq_decide]; simp

theorem bits_toNat (a : F32) : a.bits.toNat = a.pat + if a.sign = true then 2 ^ 31 else 0 := by
  have := a.bits.isLt
  rw [pat]
  by_cases h : a.sign = true
  · have := a.sign_eq_true_iff.1 h
    rw [if_pos h]; omega
  · have := mt a.sign_eq_true_iff.2 h
    rw [if_neg h]; omega

/-- A value is its sign and its pattern. -/
theorem ext_sign_pat {a b : F32} (hs : a.sign = b.sign) (hp : a.pat = b.pat) : a = b := by
  have : a.bits = b.bits := BitVec.eq_of_toNat_eq (by rw [bits_toNat, bits_toNat, hs, hp])
  cases a; cases b; simpa using this

theorem pack_bits_toNat (neg : Bool) {m : Nat} (h : m < 2 ^ 31) :
    (pack neg m).bits.toNat = if neg then m + 2 ^ 31 else m := by
  cases neg <;> simp only [pack, BitVec.toNat_ofNat] <;> simp <;> omega

theorem sign_pack (neg : Bool) {m : Nat} (h : m < 2 ^ 31) : (pack neg m).sign = neg := by
  rw [Bool.eq_iff_iff, sign_eq_true_iff, pack_bits_toNat neg h]
  cases neg <;> simp; omega

theorem pat_pack (neg : Bool) {m : Nat} (h : m < 2 ^ 31) : (pack neg m).pat = m := by
  rw [pat, pack_bits_toNat neg h]
  cases neg <;> simp <;> omega

/-- A magnitude with a sign. -/
def signed (neg : Bool) (m : Int) : Int := if neg then -m else m

@[simp] theorem signed_true (m : Int) : signed true m = -m := rfl
@[simp] theorem signed_false (m : Int) : signed false m = m := rfl

theorem units_eq (a : F32) : a.units = signed a.sign (patMag a.pat) := by
  simp only [units, signed, mag_eq_patMag]

theorem units_pack (neg : Bool) {m : Nat} (h : m < 2 ^ 31) :
    (pack neg m).units = signed neg (patMag m) := by
  rw [units_eq, sign_pack neg h, pat_pack neg h]

theorem natAbs_units (a : F32) : a.units.natAbs = a.mag := by
  rw [units_eq, mag_eq_patMag]; cases a.sign <;> simp

theorem neg_eq (a : F32) : a.neg = pack (!a.sign) a.pat := rfl

theorem abs_eq (a : F32) : a.abs = pack false a.pat := rfl

theorem sign_neg (a : F32) : a.neg.sign = !a.sign := sign_pack _ a.pat_lt

theorem pat_neg (a : F32) : a.neg.pat = a.pat := pat_pack _ a.pat_lt

theorem units_neg (a : F32) : a.neg.units = -a.units := by
  rw [units_eq, units_eq, sign_neg, pat_neg]; cases a.sign <;> simp

theorem patMag_eq_zero_iff {m : Nat} : patMag m = 0 ↔ m = 0 :=
  ⟨fun h => patMag_strictMono.injective (h.trans patMag_zero.symm), fun h => h ▸ patMag_zero⟩

/-- Away from NaN a value is 0 exactly when it is one of the two zeros. -/
theorem units_eq_zero_iff (a : F32) : a.units = 0 ↔ a.isZero = true := by
  rw [isZero_iff, ← patMag_eq_zero_iff, ← mag_eq_patMag, ← natAbs_units]; omega

theorem mag_eq_zero_iff (a : F32) : a.mag = 0 ↔ a.isZero = true := by
  rw [isZero_iff, mag_eq_patMag, patMag_eq_zero_iff]

/-- Equal values have equal bits, the two zeros apart. -/
theorem eq_of_units_eq {a b : F32} (h : a.units = b.units) (hz : a.isZero = false) : a = b := by
  have hpat : a.pat = b.pat := by
    apply patMag_strictMono.injective
    rw [← mag_eq_patMag, ← mag_eq_patMag, ← natAbs_units, ← natAbs_units, h]
  refine ext_sign_pat ?_ hpat
  have hne : patMag a.pat ≠ 0 := fun h0 => by
    rw [(isZero_iff a).2 (patMag_eq_zero_iff.1 h0)] at hz; cases hz
  rw [units_eq, units_eq, ← hpat] at h
  cases ha : a.sign <;> cases hb : b.sign <;> simp only [ha, hb, signed_true, signed_false] at h ⊢ <;> omega

theorem mag_of_isInf {a : F32} (h : a.isInf = true) : a.mag = 2 ^ 277 := by
  rw [mag_eq_patMag, (isInf_iff a).1 h, patMag_infMag]

theorem mag_lt_of_isFinite {a : F32} (h : a.isFinite = true) : a.mag < 2 ^ 277 := by
  rw [mag_eq_patMag, ← patMag_infMag]; exact patMag_strictMono ((isFinite_iff a).1 h)

/-! ### One rounding -/

/-- `r` is `num/den` rounded to nearest, ties to even, with the overflow to an infinity of the exact sign
(00_scope.md R12): a result that is no NaN, nearest where it is finite, infinite exactly from the threshold
of overflow on, and then of the exact sign. -/
def IsNearest (r : F32) (num den : Int) : Prop :=
  r.isNaN = false ∧
  (r.isFinite = true → ∀ c : F32, c.isFinite = true →
    (num - r.units * den).natAbs ≤ (num - c.units * den).natAbs ∧
    ((num - r.units * den).natAbs = (num - c.units * den).natAbs → c.units ≠ r.units →
      r.bits.toNat % 2 = 0)) ∧
  (r.isInf = true ↔ (2 ^ 277 - 2 ^ 252) * den.natAbs ≤ num.natAbs) ∧
  (r.isInf = true → (r.sign = true ↔ num * den < 0))

/-- With the sign of the exact result the distance to a value is that of the magnitudes. -/
theorem natAbs_sub_signed {num den : Int} {neg : Bool} (hneg : num * den < 0 → neg = true)
    (hpos : 0 < num * den → neg = false) (u : Int) :
    (num - signed neg u * den).natAbs = ((num.natAbs : Int) - u * den.natAbs).natAbs := by
  cases neg with
  | false =>
    have : 0 ≤ num * den := Int.not_lt.1 fun h => by simpa using hneg h
    rcases mul_nonneg_iff.1 this with ⟨hn, hd⟩ | ⟨hn, hd⟩
    · rw [signed_false, Int.natAbs_of_nonneg hn, Int.natAbs_of_nonneg hd]
    · rw [signed_false, Int.ofNat_natAbs_of_nonpos hn, Int.ofNat_natAbs_of_nonpos hd, mul_neg]; omega
  | true =>
    have : num * den ≤ 0 := Int.not_lt.1 fun h => by simpa using hpos h
    rcases mul_nonpos_iff.1 this with ⟨hn, hd⟩ | ⟨hn, hd⟩
    · rw [signed_true, Int.natAbs_of_nonneg hn, Int.ofNat_natAbs_of_nonpos hd, neg_mul, mul_neg]
    · rw [signed_true, Int.ofNat_natAbs_of_nonpos hn, Int.natAbs_of_nonneg hd, neg_mul]; omega

/-- A value seen from the side of `neg`: a pattern's magnitude, or something below 0. -/
theorem units_from_side (neg : Bool) (c : F32) :
    ∃ v : Int, c.units = signed neg v ∧ ((∃ m, v = patMag m) ∨ v < 0) := by
  refine ⟨signed neg c.units, by cases neg <;> simp, ?_⟩
  rcases lt_or_ge (signed neg c.units) 0 with h | h
  · exact .inr h
  · refine .inl ⟨c.pat, ?_⟩
    rw [units_eq] at h ⊢
    cases neg <;> cases hs : c.sign <;> simp only [hs, signed_true, signed_false] at h ⊢ <;> omega

/-- Among all values, those of the other sign included, the packed nearest pattern is nearest. -/
theorem NearestPat.pack_nearest {p : Nat} {num den : Int} {neg : Bool}
    (hp : NearestPat p num.natAbs den.natAbs) (hlt : p < infMag) (hden : den ≠ 0)
    (hneg : num * den < 0 → neg = true) (hpos : 0 < num * den → neg = false) (c : F32) :
    (num - (pack neg p).units * den).natAbs ≤ (num - c.units * den).natAbs ∧
      ((num - (pack neg p).units * den).natAbs = (num - c.units * den).natAbs →
        c.units ≠ (pack neg p).units → (pack neg p).bits.toNat % 2 = 0) := by
  have hp31 : p < 2 ^ 31 := hlt.trans (by decide)
  have hpar : (pack neg p).bits.toNat % 2 = p % 2 := by
    rw [pack_bits_toNat neg hp31]; cases neg <;> simp only [if_true, Bool.false_eq_true, if_false]; omega
  obtain ⟨v, hv, hside⟩ := units_from_side neg c
  rw [hpar, hv, units_pack neg hp31, natAbs_sub_signed hneg hpos, natAbs_sub_signed hneg hpos]
  rcases hside with ⟨m, rfl⟩ | hv
  · exact ⟨hp.close m, fun heq hne => hp.even m heq fun h => hne (by rw [h])⟩
  · have hfar : v * den.natAbs < 0 := Int.mul_neg_of_neg_of_pos hv (by omega)
    have h0 := hp.close 0
    rw [patMag_zero] at h0
    omega

/-- The rounded magnitude with the sign of the exact result is the exact result rounded. -/
theorem isNearest_pack_roundMag {num den : Int} (hden : den ≠ 0) {neg : Bool}
    (hneg : num * den < 0 → neg = true) (hpos : 0 < num * den → neg = false) :
    IsNearest (pack neg (roundMag num.natAbs den.natAbs)) num den := by
  have hden' : 0 < den.natAbs := Int.natAbs_pos.2 hden
  have hle := roundMag_le num.natAbs den.natAbs
  have h31 : roundMag num.natAbs den.natAbs < 2 ^ 31 := hle.trans_lt (by decide)
  have hover := infMag_le_roundPat_iff (num := num.natAbs) hden'
  have hinf : (pack neg (roundMag num.natAbs den.natAbs)).isInf = true ↔
      infMag ≤ roundPat num.natAbs den.natAbs := by
    rw [isInf_iff, pat_pack neg h31, roundMag_eq]; exact min_eq_right_iff
  refine ⟨isNaN_round _ _ _, fun hfin c _ => ?_, hinf.trans hover, fun h => ?_⟩
  · have hlt : roundPat num.natAbs den.natAbs < infMag := by
      rw [isFinite_iff, pat_pack neg h31, roundMag_eq] at hfin
      exact Nat.not_le.1 fun h => absurd (Nat.min_eq_right h) hfin.ne
    have heq : roundMag num.natAbs den.natAbs = roundPat num.natAbs den.natAbs := Nat.min_eq_left hlt.le
    rw [heq]
    exact (nearestPat_roundPat hden').pack_nearest hlt hden hneg hpos c
  · have hnum : num ≠ 0 := by
      rintro rfl
      have := hover.1 (hinf.1 h)
      rw [Int.natAbs_zero, Nat.le_zero, Nat.mul_eq_zero] at this
      exact this.elim (by decide +kernel) hden'.ne'
    rw [sign_pack neg h31]
    constructor
    · rintro rfl
      exact lt_of_le_of_ne (Int.not_lt.1 fun h => by simpa using hpos h) (mul_ne_zero hnum hden)
    · exact hneg

theorem isFinite_iff_not_nan_not_inf (a : F32) : a.isFinite = true ↔ a.isNaN = false ∧ a.isInf = false := by
  rw [← Bool.not_eq_true a.isNaN, ← Bool.not_eq_true a.isInf, isFinite_iff, isNaN_iff, isInf_iff]; omega

/-- A finite magnitude stays below the threshold of overflow. -/
theorem mag_lt_overflow {a : F32} (h : a.isFinite = true) : a.mag < 2 ^ 277 - 2 ^ 252 := by
  have hle : patMag a.pat ≤ patMag (infMag - 1) :=
    patMag_strictMono.monotone (Nat.le_sub_one_of_lt ((isFinite_iff a).1 h))
  have hlt : patMag (infMag - 1) < patMag infMag := patMag_strictMono (by decide)
  have := two_mul_overflow
  rw [mag_eq_patMag]; omega

/-- Below the threshold of overflow the result is finite. -/
theorem IsNearest.isFinite {r : F32} {num den : Int} (h : IsNearest r num den)
    (hlt : num.natAbs < (2 ^ 277 - 2 ^ 252) * den.natAbs) : r.isFinite = true := by
  obtain ⟨hnan, _, hover, _⟩ := h
  rw [isFinite_iff_not_nan_not_inf, ← Bool.not_eq_true r.isInf, hover]
  exact ⟨hnan, Nat.not_le.2 hlt⟩

/-- An exact result that is a finite value is not rounded. -/
theorem IsNearest.exact {r c : F32} {num den : Int} (h : IsNearest r num den) (hden : den ≠ 0)
    (hc : c.isFinite = true) (heq : num = c.units * den) : r.isFinite = true ∧ r.units = c.units := by
  have hfin : r.isFinite = true := h.isFinite <| by
    rw [heq, Int.natAbs_mul, natAbs_units]
    exact Nat.mul_lt_mul_of_pos_right (mag_lt_overflow hc) (Int.natAbs_pos.2 hden)
  obtain ⟨_, hnear, _, _⟩ := h
  obtain ⟨hclose, _⟩ := hnear hfin c hc
  exact ⟨hfin, mul_right_cancel₀ hden (by omega)⟩

/-! ### The four operations -/

theorem isNearest_add {a b : F32} (ha : a.isFinite = true) (hb : b.isFinite = true) :
    IsNearest (a.add b) (a.units + b.units) 1 := by
  simp only [add, isNaN_of_finite ha, isNaN_of_finite hb, isInf_of_finite ha, isInf_of_finite hb,
    Bool.or_self, Bool.false_eq_true, if_false]
  split
  case isTrue h =>
    rw [h]
    exact isNearest_pack_roundMag (num := 0) (den := 1) one_ne_zero (by simp) (by simp)
  case isFalse h =>
    refine isNearest_pack_roundMag (den := 1) one_ne_zero (fun h => ?_) fun h => ?_
    · simpa using h
    · simpa using Int.le_of_lt (by simpa using h)

theorem isNearest_sub {a b : F32} (ha : a.isFinite = true) (hb : b.isFinite = true) :
    IsNearest (a.sub b) (a.units - b.units) 1 := by
  rw [sub, Int.sub_eq_add_neg, ← units_neg]
  exact isNearest_add ha ((isFinite_neg b).trans hb)

theorem eq_true_of_signed_neg {s : Bool} {m : Int} (hm : 0 ≤ m) (h : signed s m < 0) : s = true := by
  cases s
  · rw [signed_false] at h; omega
  · rfl

theorem eq_false_of_signed_pos {s : Bool} {m : Int} (hm : 0 ≤ m) (h : 0 < signed s m) : s = false := by
  cases s
  · rfl
  · rw [signed_true] at h; omega

/-- The exact product: the signs compared, the magnitudes multiplied. -/
theorem units_mul_units (a b : F32) :
    a.units * b.units = signed (a.sign != b.sign) (a.mag * b.mag : Nat) := by
  rw [units_eq, units_eq, mag_eq_patMag, mag_eq_patMag]
  cases a.sign <;> cases b.sign <;> simp

/-- The sign of a product, and of a quotient, is that of the two signs compared. -/
theorem sign_bne_of_neg {a b : F32} (h : a.units * b.units < 0) : (a.sign != b.sign) = true :=
  eq_true_of_signed_neg (Int.natCast_nonneg _) (units_mul_units a b ▸ h)

theorem sign_bne_of_pos {a b : F32} (h : 0 < a.units * b.units) : (a.sign != b.sign) = false :=
  eq_false_of_signed_pos (Int.natCast_nonneg _) (units_mul_units a b ▸ h)

theorem oneUnits_pos : (0 : Int) < oneUnits := by decide +kernel

theorem mul_oneUnits_neg_iff {x : Int} : x * oneUnits < 0 ↔ x < 0 :=
  ⟨fun h => neg_of_mul_neg_left h oneUnits_pos.le, fun h => mul_neg_of_neg_of_pos h oneUnits_pos⟩

theorem mul_oneUnits_pos_iff {x : Int} : 0 < x * oneUnits ↔ 0 < x := mul_pos_iff_of_pos_right oneUnits_pos

theorem isNearest_mul {a b : F32} (ha : a.isFinite = true) (hb : b.isFinite = true) :
    IsNearest (a.mul b) (a.units * b.units) oneUnits := by
  simp only [mul, isNaN_of_finite ha, isNaN_of_finite hb, isInf_of_finite ha, isInf_of_finite hb,
    Bool.or_self, Bool.false_eq_true, if_false]
  have h := isNearest_pack_roundMag (num := a.units * b.units) oneUnits_pos.ne'
    (fun h => sign_bne_of_neg (mul_oneUnits_neg_iff.1 h)) fun h => sign_bne_of_pos (mul_oneUnits_pos_iff.1 h)
  rwa [Int.natAbs_mul, natAbs_units, natAbs_units, Int.natAbs_natCast] at h

theorem isNearest_div {a b : F32} (ha : a.isFinite = true) (hb : b.isFinite = true)
    (hz : b.isZero = false) : IsNearest (a.div b) (a.units * oneUnits) b.units := by
  have hden : b.units ≠ 0 := fun h => by rw [(units_eq_zero_iff b).1 h] at hz; cases hz
  simp only [div, isNaN_of_finite ha, isNaN_of_finite hb, isInf_of_finite ha, isInf_of_finite hb, hz,
    Bool.or_self, Bool.false_eq_true, if_false]
  have h := isNearest_pack_roundMag (num := a.units * oneUnits) hden
    (fun h => sign_bne_of_neg (mul_oneUnits_neg_iff.1 (mul_right_comm a.units oneUnits b.units ▸ h)))
    fun h => sign_bne_of_pos (mul_oneUnits_pos_iff.1 (mul_right_comm a.units oneUnits b.units ▸ h))
  rwa [Int.natAbs_mul, natAbs_units, natAbs_units, Int.natAbs_natCast] at h

/-- `f32_of_i32` and `f32_of_u32` round the integer once (00_scope.md R13). -/
theorem isNearest_ofInt (n : Int) : IsNearest (ofInt n) (n * oneUnits) 1 := by
  have h := isNearest_pack_roundMag (num := n * oneUnits) (den := 1) (neg := decide (n < 0)) one_ne_zero
    (fun h => by simpa using mul_oneUnits_neg_iff.1 (mul_one (n * (oneUnits : Int)) ▸ h))
    fun h => by simpa using (mul_oneUnits_pos_iff.1 (mul_one (n * (oneUnits : Int)) ▸ h)).le
  rwa [Int.natAbs_mul, Int.natAbs_natCast] at h

/-! ### Exact values and floor -/

/-- Every significand below 2^24 has a pattern at every shift, normal or not. -/
theorem exists_patMag (k : Nat) : ∀ q < 2 ^ 24, ∃ m < (k + 2) * 2 ^ 23, patMag m = q * 2 ^ k := by
  induction k with
  | zero => exact fun q hq => ⟨q + 0 * 2 ^ 23, by omega, patMag_add_mul hq.le (.inl rfl)⟩
  | succ k ih =>
    intro q hq
    rcases Nat.lt_or_ge q (2 ^ 23) with h | h
    · obtain ⟨m, hm, e⟩ := ih (2 * q) (by omega)
      exact ⟨m, hm.trans_le (Nat.mul_le_mul_right _ (Nat.le_succ _)), by rw [e]; ring⟩
    · exact ⟨q + (k + 1) * 2 ^ 23, by omega, patMag_add_mul hq.le (.inr h)⟩

/-- A 24-bit integer is the value of a finite f32. -/
theorem exists_units_of_natAbs_lt {n : Int} (hn : n.natAbs < 2 ^ 24) :
    ∃ c : F32, c.isFinite = true ∧ c.units = n * oneUnits := by
  obtain ⟨m, hm, e⟩ := exists_patMag 149 n.natAbs hn
  refine ⟨pack (decide (n < 0)) m, ?_, ?_⟩
  · rw [isFinite_iff, pat_pack _ (by omega)]
    exact hm.trans_le (by decide)
  · rw [units_pack _ (by omega), e, Nat.cast_mul, ← oneUnits]
    rcases lt_or_ge n 0 with h | h
    · rw [decide_eq_true h, signed_true, Int.ofNat_natAbs_of_nonpos h.le]; ring
    · rw [decide_eq_false (Int.not_lt.2 h), signed_false, Int.natAbs_of_nonneg h]

/-- The integer below a finite value is again the value of a finite f32: a large value is integral itself, and
below a small one the integer has at most 24 bits. -/
theorem exists_units_ediv {a : F32} (ha : a.isFinite = true) :
    ∃ c : F32, c.isFinite = true ∧ c.units = a.units / oneUnits * oneUnits := by
  obtain ⟨q, k, hm, hq, hk⟩ := exists_significand a.pat
  have hu : a.units = signed a.sign ((q * 2 ^ k : Nat) : Int) := by
    rw [units_eq, hm, patMag_add_mul hq.le hk]
  rcases Nat.lt_or_ge k 149 with h | h
  · apply exists_units_of_natAbs_lt
    have hle : ((q * 2 ^ k : Nat) : Int) ≤ q * oneUnits := by
      exact_mod_cast Nat.mul_le_mul_left q (Nat.pow_le_pow_right (by omega) h.le)
    have hlow : -(q : Int) ≤ a.units / oneUnits := by
      rw [Int.le_ediv_iff_mul_le oneUnits_pos, Int.neg_mul, hu]
      cases a.sign <;> simp only [signed_true, signed_false] <;> omega
    have hhigh : a.units / oneUnits ≤ q := by
      refine Int.ediv_le_of_le_mul oneUnits_pos ?_
      rw [hu]
      cases a.sign <;> simp only [signed_true, signed_false] <;> omega
    omega
  · refine ⟨a, ha, (Int.ediv_mul_cancel ?_).symm⟩
    have hdvd : oneUnits ∣ q * 2 ^ k := (pow_dvd_pow 2 h).mul_left q
    rw [← Int.natAbs_dvd_natAbs, natAbs_units, mag_eq_patMag, hm, patMag_add_mul hq.le hk]
    exact hdvd

/-- `floor` is the quotient by 1, rounded down, and it is exact (00_scope.md R12). -/
theorem floor_exact {a : F32} (ha : a.isFinite = true) :
    a.floor.isFinite = true ∧ a.floor.units = a.units / oneUnits * oneUnits := by
  unfold floor
  rw [ha, Bool.not_true, Bool.false_or]
  split
  case isTrue h => exact ⟨ha, by rw [(units_eq_zero_iff a).2 h, Int.zero_ediv, Int.zero_mul]⟩
  case isFalse h =>
    obtain ⟨c, hc, e⟩ := exists_units_ediv ha
    rw [← e]
    exact (isNearest_ofInt _).exact one_ne_zero hc (by rw [e, mul_one])

/-! ### wrap -/

theorem units_zero : zero.units = 0 := rfl

theorem units_one : one.units = oneUnits := by decide +kernel

theorem inUnit_iff {p : F32} :
    inUnit p = true ↔ p.isNaN = false ∧ 0 ≤ p.units ∧ p.units < oneUnits := by
  rw [inUnit, Bool.and_eq_true, le_iff, lt_iff, units_zero, units_one]
  have h0 : zero.isNaN = false := by decide
  have h1 : one.isNaN = false := by decide
  tauto

theorem isFinite_of_natAbs_lt {a : F32} (hn : a.isNaN = false) (h : a.units.natAbs < 2 ^ 277) :
    a.isFinite = true := by
  rw [isFinite_iff_not_nan_not_inf, ← Bool.not_eq_true a.isInf]
  refine ⟨hn, fun hi => ?_⟩
  rw [natAbs_units, mag_of_isInf hi] at h
  exact lt_irrefl _ h

theorem isFinite_of_inUnit {p : F32} (h : inUnit p = true) : p.isFinite = true := by
  obtain ⟨hn, h0, h1⟩ := inUnit_iff.1 h
  refine isFinite_of_natAbs_lt hn ?_
  have : oneUnits < 2 ^ 277 := by decide +kernel
  omega

/-- The rule's formula (00_scope.md R16). -/
theorem wrap_eq (v : F32) : v.wrap =
    if v.isFinite = false then zero
    else if one.le (v.sub v.floor) = true ∨ (v.sub v.floor).lt zero = true then zero
    else v.sub v.floor := by
  simp [wrap]

theorem inUnit_wrap (v : F32) : inUnit v.wrap = true := by
  have hz : inUnit zero = true := by decide +kernel
  rw [wrap_eq]
  split
  case isTrue => exact hz
  case isFalse h =>
    have hv : v.isFinite = true := by simpa using h
    have hn : (v.sub v.floor).isNaN = false := isNaN_sub hv (floor_exact hv).1
    split
    case isTrue => exact hz
    case isFalse h =>
      obtain ⟨h1, h0⟩ := not_or.1 h
      rw [inUnit, Bool.and_eq_true, lt_eq_not_le hn (by decide)]
      exact ⟨le_of_not_lt hn (by decide) (by simpa using h0), by simpa using h1⟩

/-- A phase has floor 0, so that the subtraction of `wrap` is exact and leaves it. -/
theorem units_wrap_of_inUnit {p : F32} (h : inUnit p = true) : p.wrap.units = p.units := by
  obtain ⟨hn, h0, h1⟩ := inUnit_iff.1 h
  have hp := isFinite_of_inUnit h
  obtain ⟨hf, e⟩ := floor_exact hp
  rw [Int.ediv_eq_zero_of_lt h0 h1, Int.zero_mul] at e
  obtain ⟨hr, hu⟩ := (isNearest_sub hp hf).exact (c := p) one_ne_zero hp (by rw [e]; ring)
  rw [wrap_eq, if_neg (by simp [hp]), if_neg, hu]
  rw [le_iff, lt_iff, hu, units_zero, units_one]
  omega

/-! ### Conversions -/

theorem le_zero_iff {v : F32} (hn : v.isNaN = false) : v.le zero = true ↔ v.units ≤ 0 := by
  have h0 : zero.isNaN = false := by decide
  rw [le_iff, units_zero]
  tauto

theorem roundU32_of_nonpos {v : F32} (h : v.isNaN = true ∨ v.units ≤ 0) : v.roundU32 = 0 := by
  rw [roundU32, if_pos]
  cases hn : v.isNaN
  · rw [(le_zero_iff hn).2 (h.resolve_left (by simp [hn]))]; rfl
  · rfl

theorem roundU32_saturates {v : F32} (hn : v.isNaN = false) (h : (4294967295 * oneUnits : Int) ≤ v.units) :
    v.roundU32 = 0xFFFFFFFF := by
  have hpos : ¬v.units ≤ 0 := by have := oneUnits_pos; omega
  rw [roundU32, hn, Bool.false_or, if_neg (mt (le_zero_iff hn).1 hpos), if_pos (by simpa using h)]
  rfl

/-- Between the bounds `round_u32` is the nearest integer, a tie going up (00_scope.md R13). -/
theorem roundU32_nearest {v : F32} (hn : v.isNaN = false) (h0 : 0 < v.units)
    (h : v.units < (4294967295 * oneUnits : Int)) :
    2 * (v.roundU32.toNat : Int) * oneUnits ≤ 2 * v.units + oneUnits ∧
      2 * v.units + oneUnits < 2 * ((v.roundU32.toNat : Int) + 1) * oneUnits := by
  have hmag : (v.mag : Int) = v.units := by rw [← natAbs_units]; omega
  have hone := oneUnits_pos
  rw [roundU32, hn, Bool.false_or, if_neg (mt (le_zero_iff hn).1 (Int.not_le.2 h0)),
    if_neg (by simpa using h), ← hmag, BitVec.toNat_ofNat]
  rw [← hmag] at h
  generalize oneUnits = o at *
  generalize v.mag = m at *
  have hlt : (2 * m + o) / (2 * o) < 2 ^ 32 := Nat.div_lt_of_lt_mul (by omega)
  rw [Nat.mod_eq_of_lt hlt]
  have hdiv := Nat.div_add_mod (2 * m + o) (2 * o)
  have hmod := Nat.mod_lt (2 * m + o) (show 0 < 2 * o by omega)
  generalize (2 * m + o) / (2 * o) = x at *
  generalize (2 * m + o) % (2 * o) = r at *
  have hx : 2 * (x : Int) * o = ((2 * o * x : Nat) : Int) := by push_cast; ring
  rw [hx, show 2 * ((x : Int) + 1) * o = 2 * x * o + 2 * o by ring, hx]
  omega

/-- Every 32-bit integer, signed or not, is far below overflow. -/
theorem isFinite_ofInt {n : Int} (h : n.natAbs ≤ 2 ^ 32) : (ofInt n).isFinite = true := by
  refine (isNearest_ofInt n).isFinite ?_
  rw [Int.natAbs_mul, Int.natAbs_natCast, Int.natAbs_one, Nat.mul_one]
  exact (Nat.mul_le_mul_right _ h).trans_lt (by decide +kernel)

/-- The f32 of a 32-bit integer is finite and nearest to it, ties to even (00_scope.md R13). -/
theorem nearest_ofInt {n : Int} (hn : n.natAbs ≤ 2 ^ 32) :
    (ofInt n).isFinite = true ∧ ∀ c : F32, c.isFinite = true →
      (n * oneUnits - (ofInt n).units).natAbs ≤ (n * oneUnits - c.units).natAbs ∧
      ((n * oneUnits - (ofInt n).units).natAbs = (n * oneUnits - c.units).natAbs →
        c.units ≠ (ofInt n).units → (ofInt n).bits.toNat % 2 = 0) := by
  obtain ⟨_, hnear, _, _⟩ := isNearest_ofInt n
  simp only [mul_one] at hnear
  exact ⟨isFinite_ofInt hn, hnear (isFinite_ofInt hn)⟩

/-- A value without a sign times a value up to 0 is a NaN or up to 0. -/
theorem mul_nonpos {x y : F32} (hx : x.sign = false) (hy : y.sign = true ∨ y.isZero = true) :
    (x.mul y).isNaN = true ∨ (x.mul y).units ≤ 0 := by
  unfold mul
  rw [hx, Bool.false_bne]
  split
  case isTrue => exact .inl (by decide)
  case isFalse =>
    split
    case isTrue =>
      split
      case isTrue => exact .inl (by decide)
      case isFalse h =>
        have hs : y.sign = true := hy.resolve_right fun hz => h (by simp [hz])
        rw [hs]
        exact .inr (by decide +kernel)
    case isFalse =>
      right
      rw [units_pack _ ((roundMag_le _ _).trans_lt (by decide))]
      rcases hy with hs | hz
      · rw [hs, signed_true]; omega
      · rw [(mag_eq_zero_iff y).2 hz, Nat.mul_zero]
        cases y.sign <;> decide +kernel

/-- A value without a sign divided by one is again without a sign, unless it is the NaN of arithmetic. -/
theorem sign_div {a b : F32} (ha : a.sign = false) (hb : b.sign = false) : (a.div b).sign = false := by
  have hround : ∀ {m}, m ≤ infMag → (pack false m).sign = false := fun h =>
    sign_pack _ (h.trans_lt (by decide))
  simp only [div, ha, hb, bne_self_eq_false]
  split
  · decide
  · split
    · split
      · decide
      · exact hround le_rfl
    · split
      · exact hround (Nat.zero_le _)
      · split
        · split
          · decide
          · exact hround le_rfl
        · exact hround (roundMag_le _ _)

theorem sign_eq_false_of_units_pos {a : F32} (h : 0 < a.units) : a.sign = false :=
  eq_false_of_signed_pos (Int.natCast_nonneg _) (units_eq a ▸ h)

/-- The f32 of an integer up to 0 has a sign or is 0. -/
theorem ofInt_nonpos {n : Int} (h : n ≤ 0) : (ofInt n).sign = true ∨ (ofInt n).isZero = true := by
  rcases h.lt_or_eq with hlt | rfl
  · refine .inl ?_
    rw [ofInt, sign_pack _ ((roundMag_le _ _).trans_lt (by decide)), decide_eq_true hlt]
  · exact .inr (by decide +kernel)

/-! ### Special values -/

section
variable {a b : F32}

theorem isNaN_add_of_isNaN (h : a.isNaN = true ∨ b.isNaN = true) : (a.add b).isNaN = true := by
  rw [add, if_pos (by simpa using h)]; decide

theorem isNaN_sub_of_isNaN (h : a.isNaN = true ∨ b.isNaN = true) : (a.sub b).isNaN = true :=
  isNaN_add_of_isNaN (h.imp_right (isNaN_neg b).trans)

theorem isNaN_mul_of_isNaN (h : a.isNaN = true ∨ b.isNaN = true) : (a.mul b).isNaN = true := by
  rw [mul, if_pos (by simpa using h)]; decide

theorem isNaN_div_of_isNaN (h : a.isNaN = true ∨ b.isNaN = true) : (a.div b).isNaN = true := by
  rw [div, if_pos (by simpa using h)]; decide

theorem compare_of_isNaN (h : a.isNaN = true ∨ b.isNaN = true) :
    a.lt b = false ∧ a.le b = false ∧ a.feq b = false := by
  rcases h with h | h <;> simp [lt, le, feq, h]

/-- Away from NaN, `==` holds of the same bits and of two zeros. -/
theorem feq_iff (ha : a.isNaN = false) (hb : b.isNaN = false) :
    a.feq b = true ↔ a = b ∨ a.isZero = true ∧ b.isZero = true := by
  have hfeq : a.feq b = true ↔ a.units = b.units := by simp [feq, ha, hb]
  rw [hfeq]
  constructor
  · intro h
    cases hz : a.isZero
    · exact .inl (eq_of_units_eq h hz)
    · exact .inr ⟨rfl, (units_eq_zero_iff b).1 (h ▸ (units_eq_zero_iff a).2 hz)⟩
  · rintro (rfl | ⟨hz, hz'⟩)
    · rfl
    · rw [(units_eq_zero_iff a).2 hz, (units_eq_zero_iff b).2 hz']

/-- An infinity is beyond every finite value. -/
theorem lt_of_isInf (ha : a.isNaN = false) (hi : a.isInf = true) (hb : b.isFinite = true) :
    if a.sign = true then a.lt b = true else b.lt a = true := by
  have hlt := mag_lt_of_isFinite hb
  rw [← mag_of_isInf hi, ← natAbs_units] at hlt
  have hu : a.units = signed a.sign a.mag := by rw [units_eq, mag_eq_patMag]
  have hn := isNaN_of_finite hb
  split
  case isTrue h =>
    rw [h, signed_true] at hu
    exact lt_iff.2 ⟨ha, hn, by omega⟩
  case isFalse h =>
    rw [Bool.not_eq_true] at h
    rw [h, signed_false] at hu
    exact lt_iff.2 ⟨hn, ha, by omega⟩

theorem isZero_of_isInf (h : a.isInf = true) : a.isZero = false := by
  rw [← Bool.not_eq_true, isZero_iff, (isInf_iff a).1 h]; decide

theorem isInf_of_isZero (h : a.isZero = true) : a.isInf = false := by
  cases hi : a.isInf
  · rfl
  · rw [isZero_of_isInf hi] at h; cases h

theorem isInf_neg (a : F32) : a.neg.isInf = a.isInf := by
  rw [Bool.eq_iff_iff, isInf_iff, isInf_iff, pat_neg]

theorem isNaN_defaultNaN : defaultNaN.isNaN = true := by decide

/-- Division by a zero (00_scope.md R12). -/
theorem div_of_isZero (ha : a.isNaN = false) (hb : b.isNaN = false) (hz : b.isZero = true) :
    if a.isZero = true then (a.div b).isNaN = true else a.div b = inf (a.sign != b.sign) := by
  have hi := isInf_of_isZero hz
  split
  case isTrue h => simp [div, ha, hb, hz, hi, h, isInf_of_isZero h, isNaN_defaultNaN]
  case isFalse h => cases h' : a.isInf <;> simp [div, ha, hb, hz, hi, h, h']

/-! An infinity on the left. -/

theorem add_of_isInf_left (ha : a.isNaN = false) (hb : b.isNaN = false) (hi : a.isInf = true) :
    (a.add b).isNaN = (b.isInf && (a.sign != b.sign)) ∧ ((a.add b).isNaN = false → a.add b = a) := by
  cases hop : b.isInf && (a.sign != b.sign) <;> simp [add, ha, hb, hi, hop, isNaN_defaultNaN]

theorem sub_of_isInf_left (ha : a.isNaN = false) (hb : b.isNaN = false) (hi : a.isInf = true) :
    (a.sub b).isNaN = (b.isInf && !(a.sign != b.sign)) ∧ ((a.sub b).isNaN = false → a.sub b = a) := by
  have h := add_of_isInf_left ha ((isNaN_neg b).trans hb) hi
  rwa [isInf_neg, sign_neg, show (a.sign != !b.sign) = !(a.sign != b.sign) by
    cases a.sign <;> cases b.sign <;> rfl] at h

theorem mul_of_isInf_left (ha : a.isNaN = false) (hb : b.isNaN = false) (hi : a.isInf = true) :
    (a.mul b).isNaN = b.isZero ∧ (b.isZero = false → a.mul b = inf (a.sign != b.sign)) := by
  cases hz : b.isZero <;>
    simp [mul, ha, hb, hi, hz, isZero_of_isInf hi, isNaN_defaultNaN, isNaN_inf]

theorem div_of_isInf_left (ha : a.isNaN = false) (hb : b.isNaN = false) (hi : a.isInf = true) :
    (a.div b).isNaN = b.isInf ∧ (b.isInf = false → a.div b = inf (a.sign != b.sign)) := by
  cases hj : b.isInf <;> simp [div, ha, hb, hi, hj, isNaN_defaultNaN, isNaN_inf]

/-! A finite value on the left, an infinity on the right. -/

theorem add_of_isInf_right (ha : a.isFinite = true) (hb : b.isNaN = false) (hi : b.isInf = true) :
    a.add b = b := by
  simp [add, isNaN_of_finite ha, isInf_of_finite ha, hb, hi]

theorem sub_of_isInf_right (ha : a.isFinite = true) (hb : b.isNaN = false) (hi : b.isInf = true) :
    a.sub b = b.neg :=
  add_of_isInf_right ha ((isNaN_neg b).trans hb) ((isInf_neg b).trans hi)

theorem div_of_isInf_right (ha : a.isFinite = true) (hb : b.isNaN = false) (hi : b.isInf = true) :
    (a.div b).isZero = true := by
  have h : a.div b = pack (a.sign != b.sign) 0 := by
    simp [div, isNaN_of_finite ha, isInf_of_finite ha, hb, hi]
  rw [h, isZero_iff, pat_pack _ (by decide)]

theorem mul_of_isInf_right (ha : a.isFinite = true) (hb : b.isNaN = false) (hi : b.isInf = true) :
    if a.isZero = true then (a.mul b).isNaN = true else a.mul b = inf (a.sign != b.sign) := by
  split <;> rename_i h <;>
    simp [mul, isNaN_of_finite ha, hb, hi, h, isZero_of_isInf hi, isNaN_defaultNaN]

end

/-! ### The sign bit -/

theorem xor_two_pow_of_lt {p k : Nat} (hp : p < 2 ^ k) : p ^^^ 2 ^ k = 2 ^ k + p := by
  have hadd := Nat.two_pow_add_eq_or_of_lt hp 1
  rw [Nat.mul_one] at hadd
  rw [hadd]
  refine Nat.eq_of_testBit_eq fun i => ?_
  rw [Nat.testBit_xor, Nat.testBit_or, Nat.testBit_two_pow]
  by_cases h : k = i
  · subst h; simp [Nat.testBit_lt_two_pow hp]
  · simp [h]

theorem abs_bits (a : F32) : a.abs.bits = a.bits &&& 0x7FFFFFFF := by
  refine BitVec.eq_of_toNat_eq ?_
  rw [abs_eq, pack_bits_toNat false a.pat_lt, BitVec.toNat_and]
  exact (Nat.and_two_pow_sub_one_eq_mod a.bits.toNat 31).symm

theorem neg_bits (a : F32) : a.neg.bits = a.bits ^^^ 0x80000000 := by
  refine BitVec.eq_of_toNat_eq ?_
  rw [neg_eq, pack_bits_toNat _ a.pat_lt, BitVec.toNat_xor, bits_toNat,
    show (0x80000000 : BitVec 32).toNat = 2 ^ 31 from rfl]
  have hxor := xor_two_pow_of_lt a.pat_lt
  cases a.sign
  · simpa [Nat.add_comm] using hxor.symm
  · rw [if_pos rfl, Nat.add_comm a.pat, ← hxor, Nat.xor_xor_cancel_right]; rfl

end Sys2Proof.F32

namespace Sys2Proof

/-! ### The numerics record -/

/-- `|sin2pi p| ≤ 1`: at the exact points by their values, elsewhere by the guard (00_scope.md R15). -/
theorem abs_sin2pi_le_one {p : F32} (h : inUnit p = true) : (sin2pi p).abs.le F32.one = true := by
  unfold sin2pi
  split
  · decide +kernel
  split
  · decide +kernel
  split
  · decide +kernel
  split
  · decide +kernel
  split
  · decide +kernel
  case isFalse hraw => simpa [h] using hraw

theorem sin2pi_exact :
    sin2pi ⟨0x00000000⟩ = F32.zero ∧ sin2pi ⟨0x3E800000⟩ = F32.one ∧
      sin2pi ⟨0x3F000000⟩ = F32.zero ∧ sin2pi ⟨0x3F400000⟩ = F32.negOne := by
  refine ⟨?_, ?_, ?_, ?_⟩
  · rw [sin2pi, if_pos (by decide +kernel)]
  · rw [sin2pi, if_neg (by decide +kernel), if_pos (by decide +kernel)]
  · rw [sin2pi, if_neg (by decide +kernel), if_neg (by decide +kernel), if_pos (by decide +kernel)]
  · rw [sin2pi, if_neg (by decide +kernel), if_neg (by decide +kernel), if_neg (by decide +kernel),
      if_pos (by decide +kernel)]

/-- On finite values `db2lin` is a lawful function or the constant 1. -/
theorem db2lin_cases :
    (Db2linLawful Config.db2linRaw ∧ ∀ d : F32, d.isFinite = true → db2lin d = Config.db2linRaw d) ∨
      ∀ d, db2lin d = F32.one := by
  by_cases hlaw : Db2linLawful Config.db2linRaw
  · refine .inl ⟨hlaw, fun d hd => ?_⟩
    rw [db2lin, if_pos hlaw]
    split
    case isTrue hz => exact ((hlaw d.bits d.bits hd hd).2.2 hz).symm
    case isFalse => rfl
  · exact .inr fun d => by simp [db2lin, hlaw]

theorem zero_lt_db2lin {d : F32} (hd : d.isFinite = true) : F32.zero.lt (db2lin d) = true := by
  rcases db2lin_cases with ⟨hlaw, heq⟩ | hone
  · rw [heq d hd]; exact (hlaw d.bits d.bits hd hd).1
  · rw [hone d]; decide +kernel

theorem db2lin_mono {d e : F32} (hd : d.isFinite = true) (he : e.isFinite = true) (h : d.le e = true) :
    (db2lin d).le (db2lin e) = true := by
  rcases db2lin_cases with ⟨hlaw, heq⟩ | hone
  · rw [heq d hd, heq e he]; exact (hlaw d.bits e.bits hd he).2.1 h
  · rw [hone d, hone e]; decide +kernel

/-! ### The NaN of a draw -/

/-- The bits of a drawn NaN: the payload, nine ones, the sign. -/
theorem nanDraw_getLsbD (n i : Nat) :
    (nanDraw n).bits.getLsbD i =
      if i < 22 then ((Config.nanBits n).extractLsb' 0 22).getLsbD i
      else if i - 22 < 9 then (0x1FF#9).getLsbD (i - 22)
      else ((Config.nanBits n).extractLsb' 22 1).getLsbD (i - 22 - 9) :=
  BitVec.getLsbD_append.trans (by rw [BitVec.getLsbD_append])

theorem nanDraw_sign (n : Nat) : (nanDraw n).bits.getLsbD 31 = (Config.nanBits n).getLsbD 22 := by
  rw [nanDraw_getLsbD]
  simp

theorem nanDraw_quiet (n : Nat) : (nanDraw n).bits.getLsbD 22 = true := by
  rw [nanDraw_getLsbD]
  rfl

theorem nanDraw_payload (n : Nat) :
    (nanDraw n).bits.extractLsb' 0 22 = (Config.nanBits n).extractLsb' 0 22 := by
  refine BitVec.eq_of_getLsbD_eq fun i hi => ?_
  rw [BitVec.getLsbD_extractLsb', Nat.zero_add, nanDraw_getLsbD, if_pos hi, decide_eq_true hi, Bool.true_and]

theorem isNaN_nanDraw (n : Nat) : (nanDraw n).isNaN = true := by
  have hfrac : (nanDraw n).frac ≠ 0 := fun h => by
    have hbit : ((nanDraw n).bits.toNat % 2 ^ 23).testBit 22 = true := by
      rw [Nat.testBit_mod_two_pow]; exact nanDraw_quiet n
    rw [← F32.frac, h, Nat.zero_testBit] at hbit
    cases hbit
  simp [F32.isNaN, nanDraw_expo, hfrac]

/-! ### The ranges of the parameters -/

theorem Config.wf_sampleRate {c : Config} (h : c.wf = true) :
    c.sampleRate.isFinite = true ∧ F32.zero.lt c.sampleRate = true := by
  simp only [Config.wf, Bool.and_eq_true] at h
  tauto

theorem Config.wf_minEnvLevel {c : Config} (h : c.wf = true) :
    minEnvLow.le c.minEnvLevel = true ∧ c.minEnvLevel.le minEnvHigh = true := by
  simp only [Config.wf, Bool.and_eq_true] at h
  tauto

/-- `MIN_ENV_LEVEL` lies between two finite bounds. -/
theorem Config.isFinite_minEnvLevel {c : Config} (h : c.wf = true) : c.minEnvLevel.isFinite = true := by
  obtain ⟨hlow, hhigh⟩ := wf_minEnvLevel h
  obtain ⟨_, hn, hl⟩ := F32.le_iff.1 hlow
  obtain ⟨_, _, hh⟩ := F32.le_iff.1 hhigh
  have hlowFin := F32.mag_lt_of_isFinite (a := minEnvLow) (by decide)
  have hhighFin := F32.mag_lt_of_isFinite (a := minEnvHigh) (by decide)
  rw [← F32.natAbs_units] at hlowFin hhighFin
  exact F32.isFinite_of_natAbs_lt hn (by omega)

end Sys2Proof

namespace Sys2Proof.Machine

/-- A duration up to 0 is 0 samples (00_scope.md R14). -/
theorem samples_of_nonpos {c : Config} (hwf : c.wf = true) {ms : Word32} (h : ms.toInt ≤ 0) :
    samples c ms = 0 := by
  obtain ⟨_, hrate⟩ := Config.wf_sampleRate hwf
  obtain ⟨_, _, hpos⟩ := F32.lt_iff.1 hrate
  have hsign : (c.sampleRate.div F32.thousand).sign = false :=
    F32.sign_div (F32.sign_eq_false_of_units_pos hpos) (by decide)
  exact F32.roundU32_of_nonpos (F32.mul_nonpos hsign (F32.ofInt_nonpos h))

/-! ### Reset -/

theorem Slot.legal_reset : Slot.reset.Legal where
  levelFinite := by decide
  levelNonneg := by decide
  shaperLow := by decide
  shaperHigh := by decide +kernel
  p0Finite := by decide
  p1Finite := by decide
  phases := by decide +kernel

theorem Lfo.legal_reset : Lfo.reset.Legal where
  freqFinite := by decide
  freqNonneg := by decide +kernel
  centerFinite := by decide
  widthFinite := by decide
  phases := by decide +kernel

/-- Every register is legal at reset: 0 dBFS is above every `MIN_ENV_LEVEL` in range, and the envelope stands
at it (10_state.md R41, R50). -/
theorem State.legal_resetOf {c : Config} (hc : c.wf = true) : (State.resetOf c).Legal := by
  obtain ⟨_, hhigh⟩ := Config.wf_minEnvLevel hc
  have henv := Config.isFinite_minEnvLevel hc
  have hzero : F32.zero.isFinite = true := by decide
  have hnonneg : F32.zero.le F32.zero = true := by decide
  have hms : 0 ≤ (0 : Word32).toInt := by decide
  exact {
    cfg := hc
    slots := fun i => by
      rw [show (State.resetOf c).slots[i] = Slot.reset from Vector.getElem_replicate ..]
      exact Slot.legal_reset
    unisonSpread := hzero
    lfos := fun i => by
      rw [show (State.resetOf c).lfos[i] = Lfo.reset from Vector.getElem_replicate ..]
      exact Lfo.legal_reset
    cutoffFinite := show F32.isFinite ⟨0x469C4000⟩ = true by decide
    cutoffNonneg := show F32.zero.le ⟨0x469C4000⟩ = true by decide +kernel
    qLow := hnonneg
    qHigh := show F32.zero.le F32.one = true by decide +kernel
    outputFinite := hzero
    outputLow := F32.le_trans hhigh (show minEnvHigh.le F32.zero = true by decide +kernel)
    attack := hms
    decay := hms
    release := hms
    sustain := hms
    sustainDbFinite := hzero
    sustainDbNonneg := hnonneg
    dutyLow := show F32.zero.le F32.half = true by decide +kernel
    dutyHigh := show F32.half.le F32.pointNine = true by decide +kernel
    gateLen := hms
    note := Nat.le_refl 128
    noteRest := iff_of_true rfl rfl
    envFinite := henv
    envLow := F32.le_refl (F32.isNaN_of_finite henv)
    envStopped := fun _ => rfl
    queue := fun n _ => Nat.zero_le n }

/-! ### The statements -/

/-- Settles O33: each operation packs the exact result rounded once, and the rounded pattern is a nearest one
among all patterns (`F32.nearestPat_roundPat`). -/
theorem arithmeticIsNearest : Obligations.ArithmeticIsNearest := fun _ _ ha hb =>
  ⟨F32.isNearest_add ha hb, F32.isNearest_sub ha hb, F32.isNearest_mul ha hb, F32.isNearest_div ha hb⟩

/-- Settles O35: the quotient by 1, rounded down, is itself the value of a finite f32. -/
theorem floorIsExact : Obligations.FloorIsExact := by
  intro a ha
  obtain ⟨hfin, hfloor⟩ := F32.floor_exact ha
  have hlt := Int.lt_ediv_add_one_mul_self a.units F32.oneUnits_pos
  rw [add_mul, one_mul] at hlt
  rw [hfloor]
  exact ⟨hfin, Int.dvd_mul_left .., Int.ediv_mul_le _ F32.oneUnits_pos.ne', hlt⟩

/-- Settles O36: the guards of `wrap` leave a remainder in [0, 1), and a phase is subtracted its floor 0. -/
theorem wrapIntoUnit : Obligations.WrapIntoUnit := by
  refine ⟨F32.inUnit_wrap, F32.wrap_eq, fun p h => ?_⟩
  obtain ⟨hwrap, _, _⟩ := F32.inUnit_iff.1 (F32.inUnit_wrap p)
  obtain ⟨hp, _, _⟩ := F32.inUnit_iff.1 h
  simp [F32.feq, hwrap, hp, F32.units_wrap_of_inUnit h]

/-- Settles O37: `sin2pi` by its exact points and its guard, `db2lin` as a lawful function or the
constant 1. -/
theorem numericsAreLawful : Obligations.NumericsAreLawful := by
  obtain ⟨h0, hquarter, hhalf, hthree⟩ := sin2pi_exact
  have hzero : F32.zero.feq F32.zero = true := by decide
  refine ⟨fun p h => abs_sin2pi_le_one h, h0 ▸ hzero, hquarter, hhalf ▸ hzero, hthree, rfl,
    fun d hd => zero_lt_db2lin hd, ?_, fun d e hd he h => db2lin_mono hd he h⟩
  rw [db2lin, if_pos (by decide)]

/-- Settles O38: the conversions round once, `round_u32` by its three cases, and a duration up to 0 gives a
product that is a NaN or up to 0. -/
theorem conversionsRound : Obligations.ConversionsRound := by
  refine ⟨fun n => ⟨F32.nearest_ofInt ?_, F32.nearest_ofInt ?_⟩,
    fun v => ⟨F32.isFinite_iff_not_nan_not_inf v, ?_⟩, fun _ _ => rfl,
    fun c ms => ⟨rfl, fun hwf hms => samples_of_nonpos hwf hms⟩, by decide +kernel⟩
  · have := n.toInt_lt
    have := n.le_toInt
    omega
  · have := n.isLt
    omega
  · split
    case isTrue h => exact F32.roundU32_of_nonpos (h.imp_right fun h => (F32.le_iff.1 h).2.2)
    case isFalse h =>
      obtain ⟨hn, hle⟩ := not_or.1 h
      rw [Bool.not_eq_true] at hn
      rw [F32.le_zero_iff hn, Int.not_le] at hle
      split
      case isTrue h => exact F32.roundU32_saturates hn h
      case isFalse h => exact F32.roundU32_nearest hn hle (Int.not_le.1 h)

/-- Settles O16: `State.legal_resetOf`, for every configuration in range. -/
theorem resetIsLegal : Obligations.ResetIsLegal := fun _ hc => State.legal_resetOf hc

/-- Settles O34: a NaN operand; then, away from NaN, the order, a zero divisor, an infinity on the left, an
infinity on the right of a finite value, `min` and `max`; and the sign bit. -/
theorem arithmeticSpecials : Obligations.ArithmeticSpecials := by
  intro a b
  refine ⟨fun h => ⟨F32.isNaN_add_of_isNaN h, F32.isNaN_sub_of_isNaN h, F32.isNaN_mul_of_isNaN h,
    F32.isNaN_div_of_isNaN h, F32.compare_of_isNaN h⟩, fun ha hb => ?_, F32.abs_bits a, F32.neg_bits a⟩
  refine ⟨by simp [F32.lt_iff, ha, hb], by simp [F32.le_iff, ha, hb], F32.feq_iff ha hb,
    F32.lt_of_isInf ha, F32.div_of_isZero ha hb, fun hi => ?_, fun hfin hi => ?_, ?_⟩
  · obtain ⟨hadd, hadd'⟩ := F32.add_of_isInf_left ha hb hi
    obtain ⟨hsub, hsub'⟩ := F32.sub_of_isInf_left ha hb hi
    obtain ⟨hmul, hmul'⟩ := F32.mul_of_isInf_left ha hb hi
    obtain ⟨hdiv, hdiv'⟩ := F32.div_of_isInf_left ha hb hi
    exact ⟨hadd, hsub, hmul, hdiv, hadd', hsub', hmul', hdiv'⟩
  · exact ⟨F32.add_of_isInf_right hfin hb hi, F32.sub_of_isInf_right hfin hb hi,
      F32.div_of_isInf_right hfin hb hi, F32.mul_of_isInf_right hfin hb hi⟩
  · obtain ⟨hmin, hmina, hminb⟩ := F32.min_cases ha hb
    obtain ⟨hmax, hmaxa, hmaxb⟩ := F32.max_cases ha hb
    exact ⟨hmin, hmina, hminb, hmax, hmaxa, hmaxb⟩

/-- Settles O39: the drawn pattern has the drawn sign, exponent 255, the quiet bit, the drawn payload. -/
theorem storedNaNIsQuiet : Obligations.StoredNaNIsQuiet := by
  intro v n
  rcases drawNaN_cases v n with ⟨h, e⟩ | ⟨h, e⟩
  · rw [if_neg (by simp [h]), e]
    exact ⟨rfl, rfl⟩
  · rw [if_pos h, e]
    exact ⟨isNaN_nanDraw n, nanDraw_quiet n, nanDraw_sign n, nanDraw_payload n, rfl⟩

end Sys2Proof.Machine


/-! # State (10_state.md)

The proofs of the statements about 10_state.md. Three facts carry them: what a command can write
(`CommandFrame`), what holds when a frame reaches the amplitude unit (`UnitsKeep`, an induction over the units
of the frame pipeline), and what a step can do (`step_cases`). Legality follows the same lines, unit by
unit. -/

namespace Sys2Proof.F32

/-! ### Sums that are no NaN, values between bounds -/

/-- A value that is no NaN plus a finite value is no NaN. -/
theorem isNaN_add_left {a b : F32} (ha : a.isNaN = false) (hb : b.isFinite = true) :
    (a.add b).isNaN = false := by
  cases hi : a.isInf
  · exact isNaN_add ((isFinite_iff_not_nan_not_inf a).2 ⟨ha, hi⟩) hb
  · simp [add, ha, isNaN_of_finite hb, hi, isInf_of_finite hb]

theorem isNaN_sub_left {a b : F32} (ha : a.isNaN = false) (hb : b.isFinite = true) :
    (a.sub b).isNaN = false := isNaN_add_left ha ((isFinite_neg b).trans hb)

theorem isNaN_abs (a : F32) : a.abs.isNaN = a.isNaN := by
  rw [Bool.eq_iff_iff, isNaN_iff, isNaN_iff, abs_eq, pat_pack _ a.pat_lt]

theorem isFinite_of_le_of_le {lo v hi : F32} (hlo : lo.isFinite = true) (hhi : hi.isFinite = true)
    (h1 : lo.le v = true) (h2 : v.le hi = true) : v.isFinite = true := by
  obtain ⟨_, hv, hl⟩ := le_iff.1 h1
  obtain ⟨_, _, hh⟩ := le_iff.1 h2
  have hloMag := mag_lt_of_isFinite hlo
  have hhiMag := mag_lt_of_isFinite hhi
  rw [← natAbs_units] at hloMag hhiMag
  exact isFinite_of_natAbs_lt hv (by omega)

/-- The f32 of an unsigned integer other than 0 is not 0, for 1 would be nearer (41_envelope_gate.md R213). -/
theorem isZero_ofU32 {n : Word32} (hn : n ≠ 0) : (ofU32 n).isZero = false := by
  have hpos : 0 < n.toNat := Nat.pos_of_ne_zero fun h => hn (BitVec.eq_of_toNat_eq h)
  have hlt := n.isLt
  obtain ⟨_, hnear⟩ := nearest_ofInt (n := n.toNat) (by omega)
  obtain ⟨hclose, _⟩ := hnear one (by decide)
  rw [units_one] at hclose
  have hone := oneUnits_pos
  by_contra hz
  have hu : (ofInt (n.toNat : Int)).units = 0 := (units_eq_zero_iff _).2 (by simpa [ofU32] using hz)
  rw [hu] at hclose
  have hprod : (oneUnits : Int) ≤ n.toNat * oneUnits :=
    le_mul_of_one_le_left hone.le (by omega)
  omega

end Sys2Proof.F32

namespace Sys2Proof.Machine

/-! ### Legalised operands -/

theorem floorZero_legal {v : F32} (hv : v.isFinite = true) :
    (floorZero v).isFinite = true ∧ F32.zero.le (floorZero v) = true := by
  unfold floorZero
  split
  case isTrue => decide
  case isFalse h =>
    exact ⟨hv, F32.le_of_not_lt (F32.isNaN_of_finite hv) (by decide) (by simpa using h)⟩

theorem clampNine_legal {v : F32} (hv : v.isFinite = true) :
    F32.zero.le (clampNine v) = true ∧ (clampNine v).le F32.pointNine = true :=
  F32.clamp_mem (F32.isNaN_of_finite hv) (by decide +kernel)

theorem clampOne_legal {v : F32} (hv : v.isFinite = true) :
    F32.zero.le (clampOne v) = true ∧ (clampOne v).le F32.one = true :=
  F32.clamp_mem (F32.isNaN_of_finite hv) (by decide +kernel)

theorem floorMinEnv_legal {c : Config} (hc : c.wf = true) {v : F32} (hv : v.isFinite = true) :
    (floorMinEnv c v).isFinite = true ∧ c.minEnvLevel.le (floorMinEnv c v) = true := by
  have hmin := Config.isFinite_minEnvLevel hc
  unfold floorMinEnv
  split
  case isTrue => exact ⟨hmin, F32.le_refl (F32.isNaN_of_finite hmin)⟩
  case isFalse h =>
    exact ⟨hv, F32.le_of_not_lt (F32.isNaN_of_finite hv) (F32.isNaN_of_finite hmin) (by simpa using h)⟩

theorem floorMs_nonneg (ms : Word32) : 0 ≤ (floorMs ms).toInt := by
  unfold floorMs
  split
  case isTrue => decide
  case isFalse h => omega

theorem noteOf_le (n : BitVec 8) : (noteOf n).toNat ≤ 128 := by
  unfold noteOf
  split
  case isTrue h => exact h.le
  case isFalse => decide

theorem noteOf_eq_rest_iff (n : BitVec 8) : noteOf n = 128 ↔ ¬(noteOf n).toNat < 128 := by
  have hle := noteOf_le n
  rw [← BitVec.toNat_inj, show (128 : BitVec 8).toNat = 128 from rfl]
  omega

/-! ### Phases -/

theorem inUnit_zeroPhases (k : Fin 7) : inUnit zeroPhases[k] = true := by
  revert k; decide +kernel

theorem inUnit_advance (p inc : F32) : inUnit (advance p inc) = true := F32.inUnit_wrap _

theorem inUnit_set {ph : Vector F32 7} (hph : ∀ k : Fin 7, inUnit ph[k] = true) (i : Fin 7) (p inc : F32)
    (k : Fin 7) : inUnit (ph.set i (advance p inc))[k] = true := by
  simp only [Fin.getElem_fin, Vector.getElem_set]
  split
  · exact inUnit_advance p inc
  · exact hph k

/-- Every wave leaves its phases in [0, 1): it keeps a phase or advances it, which wraps (40_oscillator.md
R150). -/
theorem inUnit_wave (c : Config) (sh : Shape) {ph : Vector F32 7} (hph : ∀ k : Fin 7, inUnit ph[k] = true)
    (f : F32) (m : Option F32) (p0 p1 : F32) (n : Nat) (k : Fin 7) :
    inUnit (wave c sh ph f m p0 p1 n).ph[k] = true := by
  cases sh with
  | sine | square | saw | ramp | triangle | pulse => exact inUnit_set hph 0 _ _ k
  | noise => exact hph k
  | superSaw => fin_cases k <;> exact inUnit_advance _ _
  | fm | am => exact inUnit_set (inUnit_set hph 0 _ _) 1 _ _ k

/-! ### The writes keep legality -/

theorem Slot.Legal.setPhases {sl : Slot} (hsl : sl.Legal) {ph : Vector F32 7}
    (hph : ∀ k : Fin 7, inUnit ph[k] = true) : Slot.Legal { sl with ph := ph } := { hsl with phases := hph }

theorem Lfo.Legal.setPhases {l : Lfo} (hl : l.Legal) {ph : Vector F32 7}
    (hph : ∀ k : Fin 7, inUnit ph[k] = true) : Lfo.Legal { l with ph := ph } := { hl with phases := hph }

theorem State.Legal.setSlot {s : State} (hs : s.Legal) (i : Fin 4) {sl : Slot} (hsl : sl.Legal) :
    (s.setSlot i sl).Legal :=
  { hs with
    slots := fun j => by
      rw [setSlot_get]
      split
      · exact hsl
      · exact hs.slots j }

theorem State.Legal.setLfo {s : State} (hs : s.Legal) (i : Fin 8) {l : Lfo} (hl : l.Legal) :
    (s.setLfo i l).Legal :=
  { hs with
    lfos := fun j => by
      rw [setLfo_get]
      split
      · exact hl
      · exact hs.lfos j }

theorem State.Legal.setDraws {s : State} (hs : s.Legal) (n : Nat) : (s.setDraws n).Legal := { hs with }

theorem State.Legal.emit {s : State} (hs : s.Legal) (r : OutRecord) : (s.emit r).Legal := { hs with }

theorem State.Legal.onSlot {s : State} (hs : s.Legal) (idx : BitVec 8) {f : Slot → Slot}
    (hf : ∀ sl : Slot, sl.Legal → (f sl).Legal) : (onSlot idx f s).Legal := by
  unfold Machine.onSlot
  split
  · exact hs
  · exact hs.setSlot _ (hf _ (hs.slots _))

theorem State.Legal.onLfo {s : State} (hs : s.Legal) (idx : BitVec 8) {f : Lfo → Lfo}
    (hf : ∀ l : Lfo, l.Legal → (f l).Legal) : (onLfo idx f s).Legal := by
  unfold Machine.onLfo
  split
  · exact hs
  · exact hs.setLfo _ (hf _ (hs.lfos _))

theorem State.Legal.whenFinite {s : State} (hs : s.Legal) {v : F32} {g : State → State}
    (hg : v.isFinite = true → (g s).Legal) : (whenFinite v g s).Legal := by
  unfold Machine.whenFinite
  split
  case isTrue hv => exact hg hv
  case isFalse => exact hs

/-! ### Notes -/

theorem noteOnOp_legal {s : State} (hs : s.Legal) (n : BitVec 8) : (noteOnOp n s).Legal :=
  { hs with
    note := noteOf_le n
    noteRest := by
      change (if (noteOf n).toNat < 128 then NoteState.noteOn else .rest) = .rest ↔ noteOf n = 128
      rw [noteOf_eq_rest_iff]
      by_cases h : (noteOf n).toNat < 128 <;> simp [h] }

theorem noteOffOp_legal {s : State} (hs : s.Legal) (n : BitVec 8) : (noteOffOp n s).Legal := by
  unfold noteOffOp
  split
  case isTrue h =>
    obtain ⟨-, hheld⟩ := h
    have hnote : s.curNote ≠ 128 := fun hn => by simp [hs.noteRest.2 hn] at hheld
    exact { hs with noteRest := ⟨nofun, fun hn => absurd hn hnote⟩ }
  case isFalse => exact hs

theorem noteSideband_legal {s : State} (hs : s.Legal) (e : BitVec 2) (n : BitVec 8) :
    (noteSideband e n s).Legal := by
  unfold noteSideband
  split
  · exact noteOnOp_legal hs n
  · exact noteOffOp_legal hs n
  · exact hs

/-! ### The units of a frame -/

theorem consult_legal {s : State} (hs : s.Legal) (i : Fin 8) : (consult i s).2.Legal := by
  rcases consult_cases i s with ⟨_, h⟩ | ⟨_, o, v, ho, _, h⟩ <;> rw [h]
  · exact hs
  · have hl := hs.lfos i
    exact (hs.setLfo i (hl.setPhases (ho ▸ inUnit_wave _ _ hl.phases _ _ _ _ _))).setDraws _

theorem slotTick_legal {s : State} (hs : s.Legal) (i : Fin 4) (m : Option F32) : (slotTick i m s).2.Legal := by
  rcases slotTick_cases i m s with ⟨_, h⟩ | ⟨_, o, v, ho, _, h⟩ <;> rw [h]
  · exact hs
  · have hsl := hs.slots i
    exact (hs.setSlot i (hsl.setPhases (ho ▸ inUnit_wave _ _ hsl.phases _ _ _ _ _))).setDraws _

theorem filterTick_legal {s : State} (hs : s.Legal) (x : F32) (v2 : Option F32) :
    (filterTick x v2 s).2.Legal := by
  obtain ⟨b0, b1, d, h⟩ := filterTick_frame x v2 s
  rw [h]
  exact { hs with }

theorem gateTick_legal {s : State} (hs : s.Legal) : (gateTick s).2.Legal := by
  obtain ⟨g, a, b, h⟩ := gateTick_frame s
  rw [h]
  exact { hs with }

/-! ### The envelope -/

/-- `SUS_LEVEL` is no NaN in a legal state, though the subtraction may overflow (10_state.md R32). -/
theorem isNaN_susLevel {s : State} (hs : s.Legal) : (susLevel s).isNaN = false := by
  have hsub := F32.isNaN_sub hs.outputFinite hs.sustainDbFinite
  have hmin := F32.isNaN_of_finite (Config.isFinite_minEnvLevel hs.cfg)
  obtain ⟨h | h, _⟩ := F32.max_cases hsub hmin
  · exact (congrArg F32.isNaN h).trans hsub
  · exact (congrArg F32.isNaN h).trans hmin

/-- The segment law divides by `f32_of_u32(n)` only for n > 0, so that the target and the move decide
(41_envelope_gate.md R213). -/
theorem isNaN_segmentLaw {d target : F32} {n : Word32} {move : F32 → F32} (hd : d.isNaN = false)
    (htarget : target.isNaN = false) (hmove : ∀ inc : F32, inc.isNaN = false → (move inc).isNaN = false) :
    (segmentLaw d n target (move (increment d n))).isNaN = false := by
  unfold segmentLaw
  split
  case isTrue => exact htarget
  case isFalse h =>
    have hn : n ≠ 0 := fun hn => h (by simp [snaps, hn])
    have hfin : (F32.ofU32 n).isFinite = true := F32.isFinite_ofInt (by have := n.isLt; omega)
    exact hmove _ (F32.isNaN_div hd hfin (F32.isZero_ofU32 hn))

theorem isNaN_attackLevel {s : State} (hs : s.Legal) : (attackLevel s).isNaN = false := by
  have hmin := Config.isFinite_minEnvLevel hs.cfg
  refine isNaN_segmentLaw (move := s.envLevel.add) ?_ (F32.isNaN_of_finite hs.outputFinite)
    fun inc hinc => F32.isNaN_add_right hs.envFinite hinc
  exact (F32.isNaN_abs _).trans (F32.isNaN_sub hmin hs.outputFinite)

theorem isNaN_decayLevel {s : State} (hs : s.Legal) : (decayLevel s).isNaN = false := by
  have hsus := isNaN_susLevel hs
  refine isNaN_segmentLaw (move := s.envLevel.sub) ?_ hsus
    fun inc hinc => F32.isNaN_sub_right hs.envFinite hinc
  exact (F32.isNaN_abs _).trans (F32.isNaN_sub_right hs.outputFinite hsus)

theorem isNaN_releaseLevel {s : State} (hs : s.Legal) : (releaseLevel s).isNaN = false := by
  have hmin := Config.isFinite_minEnvLevel hs.cfg
  refine isNaN_segmentLaw (move := s.envLevel.sub) ?_ (F32.isNaN_of_finite hmin)
    fun inc hinc => F32.isNaN_sub_right hs.envFinite hinc
  exact (F32.isNaN_abs _).trans (F32.isNaN_sub_left (isNaN_susLevel hs) hmin)

/-- Every stage leaves a level that is no NaN, and stops only at the floor (41_envelope_gate.md R214 to
R217). -/
theorem stageStep_level {s : State} (hs : s.Legal) (hplay : s.envExt = .playing) :
    (stageStep s).envLevel.isNaN = false ∧
      ((stageStep s).envExt = .stopped → (stageStep s).envLevel = s.cfg.minEnvLevel) := by
  have henv := F32.isNaN_of_finite hs.envFinite
  have hout := F32.isNaN_of_finite hs.outputFinite
  have hmin := F32.isNaN_of_finite (Config.isFinite_minEnvLevel hs.cfg)
  unfold stageStep
  split
  · unfold attackStep
    split
    · exact ⟨hout, fun h => by simp [hplay] at h⟩
    · exact ⟨isNaN_attackLevel hs, fun h => by simp [hplay] at h⟩
  · unfold decayStep
    split
    · exact ⟨isNaN_susLevel hs, fun h => by simp [hplay] at h⟩
    · exact ⟨isNaN_decayLevel hs, fun h => by simp [hplay] at h⟩
  · unfold sustainStep
    split <;> exact ⟨henv, fun h => by simp [hplay] at h⟩
  · unfold releaseStep
    split
    · exact ⟨hmin, fun _ => rfl⟩
    · exact ⟨isNaN_releaseLevel hs, fun h => by simp [hplay] at h⟩

/-- The clamp of step 4 brings a level between the floor and the peak (41_envelope_gate.md R218). -/
theorem clampEnv_mem {c : Config} {peak l : F32} (hpeak : c.minEnvLevel.le peak = true) (hl : l.isNaN = false) :
    c.minEnvLevel.le (clampEnv c peak l) = true ∧ (clampEnv c peak l).le peak = true := by
  obtain ⟨hc, hp, _⟩ := F32.le_iff.1 hpeak
  have hcut : (if peak.lt l then peak else l).isNaN = false ∧ (if peak.lt l then peak else l).le peak = true := by
    split
    case isTrue => exact ⟨hp, F32.le_refl hp⟩
    case isFalse h => exact ⟨hl, F32.le_of_not_lt hp hl (by simpa using h)⟩
  unfold clampEnv
  dsimp only
  generalize (if peak.lt l then peak else l) = l1 at hcut ⊢
  obtain ⟨hn, hle⟩ := hcut
  split
  case isTrue => exact ⟨F32.le_refl hc, hpeak⟩
  case isFalse h => exact ⟨F32.le_of_not_lt hn hc (by simpa using h), hle⟩

theorem clampEnv_floor {c : Config} {peak : F32} (hpeak : c.minEnvLevel.le peak = true) :
    clampEnv c peak c.minEnvLevel = c.minEnvLevel := by
  obtain ⟨hc, hp, _⟩ := F32.le_iff.1 hpeak
  have hlt : peak.lt c.minEnvLevel = false := by simp [F32.lt_eq_not_le hp hc, hpeak]
  simp [clampEnv, hlt]

theorem inspectNote_legal {s : State} (hs : s.Legal) : (inspectNote s).Legal := by
  unfold inspectNote
  split
  case h_1 hn =>
    have hnote : s.curNote ≠ 128 := fun h => by simp [hs.noteRest.2 h] at hn
    exact { hs with noteRest := ⟨nofun, fun h => absurd h hnote⟩, envStopped := nofun }
  case h_2 =>
    split
    · exact { hs with }
    · exact hs
  · exact hs
  · exact hs

/-- Steps 3 and 4 on an envelope that plays: a level between the floor and the peak, and a legal state. -/
theorem envAdvance_legal {s : State} (hs : s.Legal) (hplay : s.envExt = .playing) :
    (envAdvance s).Legal ∧ (envAdvance s).envLevel.le s.outputLevel = true := by
  obtain ⟨hnan, hstop⟩ := stageStep_level hs hplay
  obtain ⟨l, st, ex, c, h⟩ := stageStep_frame s
  unfold envAdvance
  rw [h] at hnan hstop ⊢
  obtain ⟨hlow, hhigh⟩ := clampEnv_mem hs.outputLow hnan
  refine ⟨{ hs with
    envFinite := F32.isFinite_of_le_of_le (Config.isFinite_minEnvLevel hs.cfg) hs.outputFinite hlow hhigh
    envLow := hlow
    envStopped := fun hex => ?_ }, hhigh⟩
  exact (congrArg _ (hstop hex)).trans (clampEnv_floor hs.outputLow)

/-- An ADSR tick keeps a state legal and leaves the level up to the peak (10_state.md R41). -/
theorem adsrTick_legal {s : State} (hs : s.Legal) :
    (adsrTick s).2.Legal ∧ (adsrTick s).2.envLevel.le s.outputLevel = true := by
  have hi := inspectNote_legal hs
  have hout : (inspectNote s).outputLevel = s.outputLevel := by
    obtain ⟨_, _, _, _, h⟩ := inspectNote_frame s
    rw [h]
  rcases adsrTick_cases s with ⟨hex, h⟩ | ⟨hex, h⟩ <;> rw [h, ← hout]
  · exact ⟨hi, (hi.envStopped hex).symm ▸ hi.outputLow⟩
  · exact envAdvance_legal hi hex

theorem ampTick_legal {s : State} (hs : s.Legal) : (ampTick s).2.Legal := by
  rcases ampTick_cases s with ⟨_, h⟩ | ⟨_, h⟩ <;> rw [h]
  · exact (adsrTick_legal hs).1
  · exact gateTick_legal hs

/-! ### The frame pipeline, unit by unit -/

/-- Every unit of a frame that runs before the amplitude unit keeps `P` (44_render_system.md R310, steps 2 to
7). -/
structure UnitsKeep (P : State → Prop) : Prop where
  consult : ∀ (i : Fin 8) (s : State), P s → P (consult i s).2
  slotTick : ∀ (i : Fin 4) (m : Option F32) (s : State), P s → P (slotTick i m s).2
  setDraws : ∀ (n : Nat) (s : State), P s → P (s.setDraws n)
  filterTick : ∀ (x : F32) (v2 : Option F32) (s : State), P s → P (filterTick x v2 s).2

/-- The state in which a frame reaches the amplitude unit (44_render_system.md R310, steps 1 to 7). -/
def beforeAmp (e : BitVec 2) (n : BitVec 8) (s : State) : State :=
  let m := consultMods (noteSideband e n s)
  let y := slotTicks m.1 m.2
  let mix := mixer y.1 y.2
  let v2 := consult 2 mix.2
  let flt := filterTick mix.1 v2.1 v2.2
  (consult 3 (consult 1 (consult 0 flt.2).2).2).2

theorem renderFrame_eq (e : BitVec 2) (n : BitVec 8) (s : State) :
    ∃ r, renderFrame e n s = (ampTick (beforeAmp e n s)).2.emit r := ⟨_, rfl⟩

/-- What every unit keeps from the note event on holds when the amplitude unit runs. -/
theorem UnitsKeep.beforeAmp {P : State → Prop} (h : UnitsKeep P) {e : BitVec 2} {n : BitVec 8} {s : State}
    (hs : P (noteSideband e n s)) : P (beforeAmp e n s) := by
  have hmods : ∀ t, P t → P (consultMods t).2 := fun t ht =>
    h.consult 7 _ (h.consult 6 _ (h.consult 5 _ (h.consult 4 _ ht)))
  have hslots : ∀ m t, P t → P (slotTicks m t).2 := fun m t ht =>
    h.slotTick 3 _ _ (h.slotTick 2 _ _ (h.slotTick 1 _ _ (h.slotTick 0 _ _ ht)))
  have hmixer : ∀ y t, P t → P (mixer y t).2 := fun y t ht => h.setDraws _ _ ht
  exact h.consult 3 _ (h.consult 1 _ (h.consult 0 _ (h.filterTick _ _ _ (h.consult 2 _
    (hmixer _ _ (hslots _ _ (hmods _ hs)))))))

theorem unitsKeep_legal : UnitsKeep State.Legal where
  consult i _ hs := consult_legal hs i
  slotTick i m _ hs := slotTick_legal hs i m
  setDraws n _ hs := hs.setDraws n
  filterTick x v2 _ hs := filterTick_legal hs x v2

theorem renderFrame_legal {s : State} (hs : s.Legal) (e : BitVec 2) (n : BitVec 8) :
    (renderFrame e n s).Legal := by
  obtain ⟨r, h⟩ := renderFrame_eq e n s
  rw [h]
  exact (ampTick_legal (unitsKeep_legal.beforeAmp (noteSideband_legal hs e n))).emit r

/-! ### Steps keep legality -/

theorem execResync_legal {s t : State} (hs : s.Legal) (h : execResync s = .next t) : t.Legal := by
  have hz (i : Fin 4) : (zeroSlotPhases s.slots[i]).Legal := (hs.slots i).setPhases inUnit_zeroPhases
  cases h
  exact { hs with slots := fun i => by fin_cases i; exacts [hz 0, hz 1, hz 2, hz 3] }

theorem execFltPoles_legal {s t : State} (hs : s.Legal) {p : Word32} (h : execFltPoles p s = .next t) :
    t.Legal := by
  cases h
  split
  · exact { hs with }
  · exact hs

/-- Every instruction keeps a state legal: a command because it legalises what it stores (10_state.md R46), a
frame because its units do. -/
theorem exec_legal {i : Instr} {s t : State} (hs : s.Legal) (h : exec i s = .next t) : t.Legal := by
  cases i with
  | nop => cases h; exact hs
  | resync => exact execResync_legal hs h
  | oscShape idx code => cases h; exact hs.onSlot idx fun sl hsl => { hsl with phases := inUnit_zeroPhases }
  | oscLevel idx v =>
    cases h
    exact hs.whenFinite fun hv => hs.onSlot idx fun sl hsl =>
      { hsl with levelFinite := (floorZero_legal hv).1, levelNonneg := (floorZero_legal hv).2 }
  | oscShaper idx v =>
    cases h
    exact hs.whenFinite fun hv => hs.onSlot idx fun sl hsl =>
      { hsl with shaperLow := (clampNine_legal hv).1, shaperHigh := (clampNine_legal hv).2 }
  | oscInterval idx n => cases h; exact hs.onSlot idx fun sl hsl => { hsl with }
  | oscParam0 idx v =>
    cases h; exact hs.whenFinite fun hv => hs.onSlot idx fun sl hsl => { hsl with p0Finite := hv }
  | oscParam1 idx v =>
    cases h; exact hs.whenFinite fun hv => hs.onSlot idx fun sl hsl => { hsl with p1Finite := hv }
  | unisonEn | constLevel | ampMode => cases h; exact { hs with }
  | unisonSpread v => cases h; exact hs.whenFinite fun hv => { hs with unisonSpread := hv }
  | outputLevel v =>
    cases h
    exact hs.whenFinite fun hv =>
      { hs with outputFinite := (floorMinEnv_legal hs.cfg hv).1, outputLow := (floorMinEnv_legal hs.cfg hv).2 }
  | envAttack ms => cases h; exact { hs with attack := floorMs_nonneg ms }
  | envDecay ms => cases h; exact { hs with decay := floorMs_nonneg ms }
  | envRelease ms => cases h; exact { hs with release := floorMs_nonneg ms }
  | envSustainLen ms => cases h; exact { hs with sustain := floorMs_nonneg ms }
  | envSustainLvl v =>
    cases h
    exact hs.whenFinite fun hv =>
      { hs with sustainDbFinite := (floorZero_legal hv).1, sustainDbNonneg := (floorZero_legal hv).2 }
  | gateDuty v =>
    cases h
    exact hs.whenFinite fun hv =>
      { hs with dutyLow := (clampNine_legal hv).1, dutyHigh := (clampNine_legal hv).2 }
  | gateNoteLen ms => cases h; exact { hs with gateLen := floorMs_nonneg ms }
  | noteOn n => cases h; exact noteOnOp_legal hs n
  | noteOff n => cases h; exact noteOffOp_legal hs n
  | fltCutoff v =>
    cases h
    exact hs.whenFinite fun hv =>
      { hs with cutoffFinite := (floorZero_legal hv).1, cutoffNonneg := (floorZero_legal hv).2 }
  | fltResonance v =>
    cases h
    exact hs.whenFinite fun hv => { hs with qLow := (clampOne_legal hv).1, qHigh := (clampOne_legal hv).2 }
  | fltPoles p => exact execFltPoles_legal hs h
  | lfoEnable idx b => cases h; exact hs.onLfo idx fun l hl => { hl with }
  | lfoFreq idx v =>
    cases h
    exact hs.whenFinite fun hv => hs.onLfo idx fun l hl =>
      { hl with freqFinite := (floorZero_legal hv).1, freqNonneg := (floorZero_legal hv).2 }
  | lfoCenter idx v =>
    cases h; exact hs.whenFinite fun hv => hs.onLfo idx fun l hl => { hl with centerFinite := hv }
  | lfoWidth idx v =>
    cases h; exact hs.whenFinite fun hv => hs.onLfo idx fun l hl => { hl with widthFinite := hv }
  | lfoShape idx code => cases h; exact hs.onLfo idx fun l hl => { hl with phases := inUnit_zeroPhases }
  | bufStart =>
    cases h
    split
    · exact hs
    · exact { hs with }
  | bufEnd =>
    cases h
    split
    · exact { hs with }
    · exact hs
  | tick e n =>
    cases h
    split
    · exact renderFrame_legal hs e n
    · exact hs

/-- The port takes a word only while the queue has room (20_memory.md R77). -/
theorem acceptOp_legal {s : State} (hs : s.Legal) : (acceptOp s).Legal := by
  rcases acceptOp_cases s with ⟨_, h⟩ | ⟨_, h⟩ | ⟨hroom, w, ws, _, h⟩ <;> rw [h]
  · exact hs
  · exact hs
  · refine { hs with queue := fun n hn => ?_ }
    have : s.cfg.fifoDepth = some n := hn
    simpa [cmdqFull, this] using hroom

theorem resetOp_legal {s : State} (hs : s.Legal) : (resetOp s).Legal :=
  { State.legal_resetOf hs.cfg with }

theorem step_legal {s t : State} (hs : s.Legal) (h : step s = .next t) : t.Legal := by
  have hmove (rest : List Turn) : State.Legal { s with agenda := rest } := { hs with }
  have htake {w : CommandWord} {q : List CommandWord} (hq : s.cmdq = w :: q) (rest : List Turn) :
      State.Legal { s with agenda := rest, cmdq := q } :=
    { hs with
      queue := fun n hn => by
        have hle := hs.queue n hn
        rw [hq, List.length_cons] at hle
        exact Nat.le_of_succ_le hle }
  rcases step_cases s with ⟨_, e⟩ | ⟨_, rest, _, ⟨_, e⟩ | ⟨_, e⟩ | ⟨_, _, e⟩ | ⟨_, _, w, q, hq, e⟩ | ⟨_, _, _, e⟩ |
    ⟨_, i, _, _, e⟩⟩ <;> rw [e] at h
  · cases h; exact hs
  · cases h; exact acceptOp_legal (hmove rest)
  · cases h; exact resetOp_legal (hmove rest)
  · cases h; exact hmove rest
  · exact exec_legal (htake hq rest) h
  · cases h; exact hmove rest
  · exact exec_legal (hmove rest) h

/-! ### What an instruction can write -/

theorem exec_next (i : Instr) (s : State) : ∃ t, exec i s = .next t := by
  cases i <;> exact ⟨_, rfl⟩

/-- What the command `i` leaves alone between `s` and `t`, the phases and the note it may write named
(10_state.md R22). -/
structure CommandFrame (i : Instr) (s t : State) : Prop where
  running : t.running = s.running
  inBuffer : t.inBuffer = s.inBuffer
  cmdq : t.cmdq = s.cmdq
  ctrlIn : t.ctrlIn = s.ctrlIn
  agenda : t.agenda = s.agenda
  cfg : t.cfg = s.cfg
  draws : t.draws = s.draws
  out : t.out = s.out
  slotPhases : ∀ k : Fin 4, t.slots[k].ph = s.slots[k].ph ∨
    t.slots[k].ph = zeroPhases ∧ (i = .resync ∨ ∃ idx c, i = .oscShape idx c ∧ idx.toNat = k.val)
  lfoPhases : ∀ k : Fin 8, t.lfos[k].ph = s.lfos[k].ph ∨
    t.lfos[k].ph = zeroPhases ∧ ∃ idx c, i = .lfoShape idx c ∧ idx.toNat = k.val
  note : (t.curNote = s.curNote ∧ t.noteState = s.noteState) ∨ (∃ n, i = .noteOn n) ∨
    ∃ n, i = .noteOff n ∧ t.curNote = s.curNote

theorem CommandFrame.refl (i : Instr) (s : State) : CommandFrame i s s where
  running := rfl
  inBuffer := rfl
  cmdq := rfl
  ctrlIn := rfl
  agenda := rfl
  cfg := rfl
  draws := rfl
  out := rfl
  slotPhases _ := .inl rfl
  lfoPhases _ := .inl rfl
  note := .inl ⟨rfl, rfl⟩

/-- An index names the slot of its value, or none (30_encoding.md R103). -/
theorem slotOf_cases (idx : BitVec 8) :
    (legalSlot idx = false ∧ slotOf idx = none) ∨ ∃ i : Fin 4, slotOf idx = some i ∧ idx.toNat = i.val := by
  by_cases h : idx.toNat < 4
  · exact .inr ⟨⟨idx.toNat, h⟩, by simp [slotOf, h], rfl⟩
  · exact .inl ⟨by simpa [legalSlot] using h, by simp [slotOf, h]⟩

/-- An index names the LFO of its value, or none (30_encoding.md R103). -/
theorem lfoOf_cases (idx : BitVec 8) :
    (legalLfo idx = false ∧ lfoOf idx = none) ∨ ∃ i : Fin 8, lfoOf idx = some i ∧ idx.toNat = i.val := by
  by_cases h : idx.toNat < 8
  · exact .inr ⟨⟨idx.toNat, h⟩, by simp [lfoOf, h], rfl⟩
  · exact .inl ⟨by simpa [legalLfo] using h, by simp [lfoOf, h]⟩

theorem onSlot_frame {i : Instr} {idx : BitVec 8} {f : Slot → Slot} {s : State}
    (hf : ∀ sl : Slot, (f sl).ph = sl.ph ∨ (f sl).ph = zeroPhases ∧ ∃ c, i = .oscShape idx c) :
    CommandFrame i s (onSlot idx f s) := by
  rcases slotOf_cases idx with ⟨_, h⟩ | ⟨j, h, hj⟩ <;> rw [onSlot, h]
  · exact .refl i s
  · refine { CommandFrame.refl i s with slotPhases := fun k => ?_ }
    rw [setSlot_get]
    split
    case isTrue hjk =>
      subst hjk
      exact (hf _).imp_right fun ⟨hz, c, hi⟩ => ⟨hz, .inr ⟨idx, c, hi, hj⟩⟩
    case isFalse => exact .inl rfl

theorem onLfo_frame {i : Instr} {idx : BitVec 8} {f : Lfo → Lfo} {s : State}
    (hf : ∀ l : Lfo, (f l).ph = l.ph ∨ (f l).ph = zeroPhases ∧ ∃ c, i = .lfoShape idx c) :
    CommandFrame i s (onLfo idx f s) := by
  rcases lfoOf_cases idx with ⟨_, h⟩ | ⟨j, h, hj⟩ <;> rw [onLfo, h]
  · exact .refl i s
  · refine { CommandFrame.refl i s with lfoPhases := fun k => ?_ }
    rw [setLfo_get]
    split
    case isTrue hjk =>
      subst hjk
      exact (hf _).imp_right fun ⟨hz, c, hi⟩ => ⟨hz, idx, c, hi, hj⟩
    case isFalse => exact .inl rfl

theorem whenFinite_frame {i : Instr} {s : State} {v : F32} {g : State → State} (hg : CommandFrame i s (g s)) :
    CommandFrame i s (whenFinite v g s) := by
  unfold whenFinite
  split
  · exact hg
  · exact .refl i s

theorem execResync_frame {s t : State} (h : execResync s = .next t) : CommandFrame .resync s t := by
  cases h
  exact { CommandFrame.refl .resync s with
    slotPhases := fun k => .inr ⟨by fin_cases k <;> rfl, .inl rfl⟩ }

theorem execNoteOff_frame {n : BitVec 8} {s t : State} (h : execNoteOff n s = .next t) :
    CommandFrame (.noteOff n) s t := by
  cases h
  unfold noteOffOp
  split
  · exact { CommandFrame.refl (.noteOff n) s with note := .inr (.inr ⟨n, rfl, rfl⟩) }
  · exact .refl _ s

theorem execFltPoles_frame {p : Word32} {s t : State} (h : execFltPoles p s = .next t) :
    CommandFrame (.fltPoles p) s t := by
  cases h
  split
  · exact { CommandFrame.refl (.fltPoles p) s with }
  · exact .refl _ s

theorem exec_commandFrame {i : Instr} {s t : State} (hi : i.isCommand = true) (h : exec i s = .next t) :
    CommandFrame i s t := by
  cases i with
  | bufStart | bufEnd | tick => cases hi
  | nop => cases h; exact .refl _ s
  | resync => exact execResync_frame h
  | oscShape idx c => cases h; exact onSlot_frame fun _ => .inr ⟨rfl, c, rfl⟩
  | oscInterval => cases h; exact onSlot_frame fun _ => .inl rfl
  | oscLevel | oscShaper | oscParam0 | oscParam1 =>
    cases h; exact whenFinite_frame (onSlot_frame fun _ => .inl rfl)
  | unisonEn | constLevel | ampMode | envAttack | envDecay | envRelease | envSustainLen | gateNoteLen =>
    cases h; exact { CommandFrame.refl _ s with }
  | unisonSpread | outputLevel | envSustainLvl | gateDuty | fltCutoff | fltResonance =>
    cases h; exact whenFinite_frame { CommandFrame.refl _ s with }
  | noteOn n => cases h; exact { CommandFrame.refl _ s with note := .inr (.inl ⟨n, rfl⟩) }
  | noteOff n => exact execNoteOff_frame h
  | fltPoles p => exact execFltPoles_frame h
  | lfoEnable => cases h; exact onLfo_frame fun _ => .inl rfl
  | lfoFreq | lfoCenter | lfoWidth => cases h; exact whenFinite_frame (onLfo_frame fun _ => .inl rfl)
  | lfoShape idx c => cases h; exact onLfo_frame fun _ => .inr ⟨rfl, c, rfl⟩

theorem event_of_not_command {i : Instr} (hi : i.isCommand = false) :
    i = .bufStart ∨ i = .bufEnd ∨ ∃ e n, i = .tick e n := by
  cases i with
  | bufStart => exact .inl rfl
  | bufEnd => exact .inr (.inl rfl)
  | tick e n => exact .inr (.inr ⟨e, n, rfl⟩)
  | _ => cases hi

/-- A `TICK` runs a frame inside a buffer and is refused outside (44_render_system.md R305, R307). -/
theorem exec_tick_cases {e : BitVec 2} {n : BitVec 8} {s t : State} (h : exec (.tick e n) s = .next t) :
    (s.inBuffer = false ∧ t = s) ∨ (s.inBuffer = true ∧ t = renderFrame e n s) := by
  cases hb : s.inBuffer <;> simp only [exec, execTick, hb, if_true, Bool.false_eq_true, if_false] at h
  · exact .inl ⟨rfl, (Host.Outcome.next.inj h).symm⟩
  · exact .inr ⟨rfl, (Host.Outcome.next.inj h).symm⟩

/-- No instruction writes the queue, the words presented, the moves to come or the parameters of the machine
(20_memory.md R77, R78, 10_state.md R49). -/
theorem exec_frontEnd {i : Instr} {s t : State} (h : exec i s = .next t) :
    t.cfg = s.cfg ∧ t.cmdq = s.cmdq ∧ t.ctrlIn = s.ctrlIn ∧ t.agenda = s.agenda := by
  cases hi : i.isCommand
  case true =>
    have hf := exec_commandFrame hi h
    exact ⟨hf.cfg, hf.cmdq, hf.ctrlIn, hf.agenda⟩
  case false =>
    obtain rfl | rfl | ⟨e, n, rfl⟩ := event_of_not_command hi
    · cases h
      split <;> exact ⟨rfl, rfl, rfl, rfl⟩
    · cases h
      split <;> exact ⟨rfl, rfl, rfl, rfl⟩
    · obtain ⟨_, rfl⟩ | ⟨_, rfl⟩ := exec_tick_cases h
      · exact ⟨rfl, rfl, rfl, rfl⟩
      · obtain ⟨_, _, _, _, _, _, _, _, _, _, _, _, _, _, _, hr⟩ := renderFrame_frame e n s
        rw [hr]
        exact ⟨rfl, rfl, rfl, rfl⟩

/-! ### Illegal operands -/

theorem onSlot_of_illegal {idx : BitVec 8} (h : legalSlot idx = false) (f : Slot → Slot) (s : State) :
    onSlot idx f s = s := by
  rcases slotOf_cases idx with ⟨_, e⟩ | ⟨i, _, hi⟩
  · rw [onSlot, e]; rfl
  · simp [legalSlot, hi] at h

theorem onLfo_of_illegal {idx : BitVec 8} (h : legalLfo idx = false) (f : Lfo → Lfo) (s : State) :
    onLfo idx f s = s := by
  rcases lfoOf_cases idx with ⟨_, e⟩ | ⟨i, _, hi⟩
  · rw [onLfo, e]; rfl
  · simp [legalLfo, hi] at h

theorem whenFinite_of_not_finite {v : F32} (h : v.isFinite = false) (g : State → State) (s : State) :
    whenFinite v g s = s := by simp [whenFinite, h, asNop]

/-- An indexed command with an f32 payload is `NOP` for either illegal operand (30_encoding.md R103, 10_state.md
R46). -/
theorem whenFinite_of_illegal {legal : Bool} {v : F32} {g : State → State} {s : State}
    (h : (legal && v.isFinite) = false) (hg : legal = false → g s = s) : whenFinite v g s = s := by
  rcases Bool.and_eq_false_iff.1 h with hl | hv
  · unfold whenFinite
    split
    · exact hg hl
    · rfl
  · exact whenFinite_of_not_finite hv g s

theorem polesOf_of_illegal {p : Word32} (h : legalPoles p = false) : polesOf p = none := by
  simp only [legalPoles, Bool.or_eq_false_iff, beq_eq_false_iff_ne, ne_eq, ← BitVec.toNat_inj] at h
  unfold polesOf
  split <;> simp_all

/-! ### The moves of the ports -/

theorem step_accept {s : State} {rest : List Turn} (h : s.agenda = .accept :: rest) :
    step s = .next (acceptOp { s with agenda := rest }) := by simp [step, fetch, h, turnOp]

theorem step_reset {s : State} {rest : List Turn} (h : s.agenda = .reset :: rest) :
    step s = .next (resetOp { s with agenda := rest }) := by simp [step, fetch, h, turnOp]

theorem acceptOp_of_room {s : State} {w : CommandWord} {ws : List CommandWord} (hin : s.ctrlIn = w :: ws)
    (h : cmdqFull s = false) : acceptOp s = { s with ctrlIn := ws, cmdq := s.cmdq ++ [w] } := by
  simp [acceptOp, hin, h]

theorem acceptOp_stands (s : State) : (acceptOp s).cfg = s.cfg ∧ (acceptOp s).agenda = s.agenda := by
  rcases acceptOp_cases s with ⟨_, h⟩ | ⟨_, h⟩ | ⟨_, _, _, _, h⟩ <;> rw [h] <;> exact ⟨rfl, rfl⟩

theorem acceptOp_of_full {s : State} (h : cmdqFull s = true) : acceptOp s = s := by
  cases hin : s.ctrlIn <;> simp [acceptOp, hin, h]

/-- Every register is at the value of the reset table, whatever stands outside the block (10_state.md R50). -/
theorem atReset_resetOp (s : State) : (resetOp s).AtReset where
  slots i := by fin_cases i <;> rfl
  unisonEn := rfl
  unisonSpread := rfl
  constLevel := rfl
  lfos i := by fin_cases i <;> rfl
  fltCutoff := rfl
  fltQ := rfl
  fltPoles := rfl
  buf0 := rfl
  buf1 := rfl
  ampMode := rfl
  outputLevel := rfl
  attackMs := rfl
  decayMs := rfl
  releaseMs := rfl
  sustainMs := rfl
  sustainDb := rfl
  gateDuty := rfl
  gateLenMs := rfl
  curNote := rfl
  noteState := rfl
  envLevel := rfl
  envStage := rfl
  envExt := rfl
  susCnt := rfl
  gateState := rfl
  gateOnCnt := rfl
  gateOffCnt := rfl
  inBuffer := rfl
  cmdq := rfl

/-! ### Frames -/

/-- A slot replaced by one with the same parameter registers leaves those of the state (10_state.md R22). -/
theorem params_setSlot {s : State} {i : Fin 4} {sl : Slot} (h : sl.params = s.slots[i].params) :
    (s.setSlot i sl).params = s.params := by
  have hget (k : Nat) (hk : k < 4) : (s.slots.set i sl)[k].params = s.slots[k].params := by
    rw [Vector.getElem_set]
    split
    case isTrue hik => subst hik; exact h
    case isFalse => rfl
  simp only [State.params, setSlot_slots, hget]
  rfl

/-- An LFO replaced by one with the same parameter registers leaves those of the state (10_state.md R22). -/
theorem params_setLfo {s : State} {i : Fin 8} {l : Lfo} (h : l.params = s.lfos[i].params) :
    (s.setLfo i l).params = s.params := by
  have hget (k : Nat) (hk : k < 8) : (s.lfos.set i l)[k].params = s.lfos[k].params := by
    rw [Vector.getElem_set]
    split
    case isTrue hik => subst hik; exact h
    case isFalse => rfl
  simp only [State.params, setLfo_lfos, hget]
  rfl

/-- The units write phases, never a parameter register (10_state.md R22). -/
theorem unitsKeep_params (p : Params) : UnitsKeep fun s => s.params = p where
  consult i s hs := by
    rcases consult_cases i s with ⟨_, h⟩ | ⟨_, o, v, _, _, h⟩ <;> rw [h]
    · exact hs
    · have hlfo : (s.setLfo i { s.lfos[i] with ph := o.ph }).params = s.params := params_setLfo rfl
      exact hlfo.trans hs
  slotTick i m s hs := by
    rcases slotTick_cases i m s with ⟨_, h⟩ | ⟨_, o, v, _, _, h⟩ <;> rw [h]
    · exact hs
    · have hslot : (s.setSlot i { s.slots[i] with ph := o.ph }).params = s.params := params_setSlot rfl
      exact hslot.trans hs
  setDraws _ _ hs := hs
  filterTick x v2 s hs := by
    obtain ⟨_, _, _, h⟩ := filterTick_frame x v2 s
    rw [h]
    exact hs

/-- The units before it share no state with the amplitude unit (41_envelope_gate.md R208). -/
theorem unitsKeep_ampPart (p : AmpPart) : UnitsKeep fun s => s.ampPart = p where
  consult i s hs := by
    obtain ⟨_, _, h⟩ := consult_frame i s
    rw [h]
    exact hs
  slotTick i m s hs := by
    obtain ⟨_, _, h⟩ := slotTick_frame i m s
    rw [h]
    exact hs
  setDraws _ _ hs := hs
  filterTick x v2 s hs := by
    obtain ⟨_, _, _, h⟩ := filterTick_frame x v2 s
    rw [h]
    exact hs

theorem params_renderFrame (e : BitVec 2) (n : BitVec 8) (s : State) :
    (renderFrame e n s).params = s.params := by
  have hnote : (noteSideband e n s).params = s.params := by
    obtain ⟨_, _, h⟩ := noteSideband_frame e n s
    rw [h]
    rfl
  have hbefore : (beforeAmp e n s).params = s.params := (unitsKeep_params s.params).beforeAmp hnote
  obtain ⟨r, hr⟩ := renderFrame_eq e n s
  rw [hr]
  generalize beforeAmp e n s = u at hbefore ⊢
  obtain ⟨_, _, _, _, _, _, _, _, hamp⟩ := ampTick_frame u
  rw [hamp]
  exact hbefore

theorem ampPart_beforeAmp (e : BitVec 2) (n : BitVec 8) (s : State) :
    (beforeAmp e n s).ampPart = (noteSideband e n s).ampPart := (unitsKeep_ampPart _).beforeAmp rfl

/-- A frame in Envelope mode leaves the Gate, one in Gate mode the envelope and the note but for its sideband
(41_envelope_gate.md R207, R208). -/
theorem renderFrame_amp (e : BitVec 2) (n : BitVec 8) (s : State) :
    (renderFrame e n s).curNote = (noteSideband e n s).curNote ∧
    (s.ampMode = .envelope → (renderFrame e n s).gateState = s.gateState ∧
      (renderFrame e n s).gateOnCnt = s.gateOnCnt ∧ (renderFrame e n s).gateOffCnt = s.gateOffCnt) ∧
    (s.ampMode = .gate → (renderFrame e n s).envLevel = s.envLevel ∧ (renderFrame e n s).envStage = s.envStage ∧
      (renderFrame e n s).envExt = s.envExt ∧ (renderFrame e n s).susCnt = s.susCnt ∧
      (renderFrame e n s).noteState = (noteSideband e n s).noteState) := by
  obtain ⟨r, hr⟩ := renderFrame_eq e n s
  have hpart := ampPart_beforeAmp e n s
  obtain ⟨k, ns, hnote⟩ := noteSideband_frame e n s
  rw [hr, hnote]
  rw [hnote] at hpart
  generalize beforeAmp e n s = u at hpart ⊢
  simp only [State.ampPart, AmpPart.mk.injEq] at hpart
  obtain ⟨_, hmode, _, _, _, _, _, _, _, _, hcur, hns, hlevel, hstage, hext, hsus, hgate, hon, hoff⟩ := hpart
  rcases ampTick_cases u with ⟨hu, h⟩ | ⟨hu, h⟩ <;> rw [h]
  · obtain ⟨_, _, _, _, _, hadsr⟩ := adsrTick_frame u
    rw [hadsr]
    exact ⟨hcur, fun _ => ⟨hgate, hon, hoff⟩, fun hs => by simp [← hmode, hu] at hs⟩
  · obtain ⟨_, _, _, hg⟩ := gateTick_frame u
    rw [hg]
    exact ⟨hcur, fun hs => by simp [← hmode, hu] at hs, fun _ => ⟨hlevel, hstage, hext, hsus, hns⟩⟩

/-! ### Within a buffer -/

/-- An event that does not end a buffer brings a `BUF_START` or a `TICK`, if anything (30_encoding.md R107). -/
theorem decodeEvent_of_not_endsBuffer {e : EventCode} {i : Instr} (hend : Turn.endsBuffer (.event e) = false)
    (h : decodeEvent e = some i) : i = .bufStart ∨ ∃ ev n, i = .tick ev n := by
  have hne : (evtField e).toNat ≠ 3 := fun h3 => by
    have : evtField e = 3 := BitVec.eq_of_toNat_eq h3
    simp [Turn.endsBuffer, this] at hend
  unfold decodeEvent at h
  split at h
  case h_1 => exact .inl (Option.some.inj h).symm
  case h_2 => exact .inr ⟨_, _, (Option.some.inj h).symm⟩
  case h_3 h3 => exact absurd h3 hne
  case h_4 => cases h

/-- What stands from `s` to `t` within a buffer: the block stays in it, the parameter registers stand and words
only enter `CMDQ` (20_memory.md R80). -/
structure SnapshotHolds (s t : State) : Prop where
  inBuffer : t.inBuffer = true
  params : t.params = s.params
  cmdq : ∃ ws, t.cmdq = s.cmdq ++ ws

theorem SnapshotHolds.refl {s : State} (hs : s.inBuffer = true) : SnapshotHolds s s where
  inBuffer := hs
  params := rfl
  cmdq := ⟨[], (List.append_nil _).symm⟩

theorem SnapshotHolds.trans {s t u : State} (hst : SnapshotHolds s t) (htu : SnapshotHolds t u) :
    SnapshotHolds s u where
  inBuffer := htu.inBuffer
  params := htu.params.trans hst.params
  cmdq := by
    obtain ⟨ws, hw⟩ := hst.cmdq
    obtain ⟨vs, hv⟩ := htu.cmdq
    exact ⟨ws ++ vs, by rw [hv, hw, List.append_assoc]⟩

theorem renderFrame_snapshot {s : State} (hs : s.inBuffer = true) (e : BitVec 2) (n : BitVec 8) :
    SnapshotHolds s (renderFrame e n s) := by
  have hparams := params_renderFrame e n s
  obtain ⟨_, _, _, _, _, _, _, _, _, _, _, _, _, _, _, hr⟩ := renderFrame_frame e n s
  rw [hr] at hparams ⊢
  exact { SnapshotHolds.refl hs with params := hparams }

theorem acceptOp_snapshot {s : State} (hs : s.inBuffer = true) : SnapshotHolds s (acceptOp s) := by
  rcases acceptOp_cases s with ⟨_, h⟩ | ⟨_, h⟩ | ⟨_, w, ws, _, h⟩ <;> rw [h]
  · exact .refl hs
  · exact .refl hs
  · exact ⟨hs, rfl, [w], rfl⟩

/-- A step in a buffer, by a move that does not end it, keeps the snapshot and uses up one move. -/
theorem step_snapshot {s : State} (hs : s.inBuffer = true) (hend : ∀ m ∈ s.agenda.head?, m.endsBuffer = false) :
    ∃ t, step s = .next t ∧ t.agenda = s.agenda.tail ∧ SnapshotHolds s t := by
  have hmove (rest : List Turn) : SnapshotHolds s { s with agenda := rest } :=
    { SnapshotHolds.refl hs with }
  rcases step_cases s with ⟨hag, e⟩ | ⟨m, rest, hag, hm⟩
  · exact ⟨s, e, by simp [hag], .refl hs⟩
  have hm' : m.endsBuffer = false := hend m (by simp [hag])
  rw [hag, List.tail_cons]
  obtain ⟨_, e⟩ | ⟨rfl, _⟩ | ⟨_, _, e⟩ | ⟨_, hgap, _⟩ | ⟨_, _, _, e⟩ | ⟨ev, i, rfl, hi, e⟩ := hm
  · exact ⟨_, e, (acceptOp_stands _).2, (hmove rest).trans (acceptOp_snapshot hs)⟩
  · cases hm'
  · exact ⟨_, e, rfl, hmove rest⟩
  · exact absurd (hs.symm.trans hgap) (by decide)
  · exact ⟨_, e, rfl, hmove rest⟩
  · obtain ⟨t, ht⟩ := exec_next i { s with agenda := rest }
    obtain ⟨_, _, _, hrest⟩ := exec_frontEnd ht
    refine ⟨t, e.trans ht, hrest, (hmove rest).trans ?_⟩
    obtain rfl | ⟨ev, n, rfl⟩ := decodeEvent_of_not_endsBuffer hm' hi
    · cases ht
      rw [if_pos hs]
      exact .refl hs
    · obtain ⟨hgap, _⟩ | ⟨_, rfl⟩ := exec_tick_cases ht
      · exact absurd (hs.symm.trans hgap) (by decide)
      · exact renderFrame_snapshot (s := { s with agenda := rest }) hs ev n

theorem run_snapshot (n : Nat) : ∀ s : State, s.inBuffer = true →
    (∀ m ∈ s.agenda.take n, m.endsBuffer = false) → SnapshotHolds s (run n s) := by
  induction n with
  | zero => exact fun s hs _ => .refl hs
  | succ n ih =>
    intro s hs hend
    have hsplit (m : Turn) : m ∈ s.agenda.head? ∨ m ∈ s.agenda.tail.take n → m ∈ s.agenda.take (n + 1) := by
      cases s.agenda <;> simp [eq_comm]
    obtain ⟨t, ht, hag, hst⟩ := step_snapshot hs fun m hm => hend m (hsplit m (.inl hm))
    have hrun : run (n + 1) s = run n t := by rw [run, ht]
    rw [hrun]
    exact hst.trans (ih t hst.inBuffer fun m hm => hend m (hsplit m (.inr (hag ▸ hm))))

/-! ### The statements -/

/-- Settles O17: `step_legal`, by the move of the step and the instruction it brings. -/
theorem legalIsKept : Obligations.LegalIsKept := fun _ _ hs h => step_legal hs h

/-- Settles O18, by induction on the number of steps (`run_snapshot`) over `step_snapshot`. -/
theorem bufferIsASnapshot : Obligations.BufferIsASnapshot := by
  intro n s hs hend
  obtain ⟨hbuf, hparams, hcmdq⟩ := run_snapshot n s hs hend
  exact ⟨hbuf, hparams, hcmdq⟩

/-- Settles O10: the index, the payload or the pole count makes the operation of the command `asNop`. -/
theorem illegalOperandsAreNop : Obligations.IllegalOperandsAreNop := by
  intro i s hi hwf
  cases i with
  | bufStart | bufEnd | tick => cases hi
  | nop | resync | unisonEn | constLevel | ampMode | envAttack | envDecay | envRelease | envSustainLen |
    gateNoteLen | noteOn | noteOff => cases hwf
  | oscShape | oscInterval => exact congrArg Host.Outcome.next (onSlot_of_illegal hwf _ s)
  | oscLevel | oscShaper | oscParam0 | oscParam1 =>
    exact congrArg Host.Outcome.next (whenFinite_of_illegal hwf fun h => onSlot_of_illegal h _ s)
  | unisonSpread | outputLevel | envSustainLvl | gateDuty | fltCutoff | fltResonance =>
    exact congrArg Host.Outcome.next (whenFinite_of_not_finite hwf _ s)
  | fltPoles p =>
    change execFltPoles p s = .next s
    rw [execFltPoles, polesOf_of_illegal hwf]
    rfl
  | lfoEnable | lfoShape => exact congrArg Host.Outcome.next (onLfo_of_illegal hwf _ s)
  | lfoFreq | lfoCenter | lfoWidth =>
    exact congrArg Host.Outcome.next (whenFinite_of_illegal hwf fun h => onLfo_of_illegal h _ s)

/-- Settles O11: by the move of the step; the instruction it brings writes neither queue nor port
(`exec_frontEnd`). -/
theorem queueIsFifo : Obligations.QueueIsFifo := by
  intro s t h
  rcases step_cases s with ⟨hag, e⟩ | ⟨_, rest, hag, ⟨rfl, e⟩ | ⟨rfl, e⟩ | ⟨rfl, hidle, e⟩ |
    ⟨rfl, hgap, w, q, hq, e⟩ | ⟨_, rfl, _, e⟩ | ⟨_, i, rfl, _, e⟩⟩ <;> rw [e] at h
  · cases h
    exact .inl ⟨rfl, rfl, fun _ h => by simp [hag] at h⟩
  · cases h
    rcases acceptOp_cases { s with agenda := rest } with ⟨_, h⟩ | ⟨_, h⟩ | ⟨_, w, ws, hin, h⟩ <;> rw [h]
    · exact .inl ⟨rfl, rfl, fun _ h => by simp [hag] at h⟩
    · exact .inl ⟨rfl, rfl, fun _ h => by simp [hag] at h⟩
    · exact .inr (.inl ⟨w, rest, hag, hin, rfl⟩)
  · cases h
    exact .inr (.inr (.inr ⟨⟨rest, hag⟩, rfl, rfl⟩))
  · cases h
    exact .inl ⟨rfl, rfl, fun _ _ => hidle⟩
  · obtain ⟨_, hcmdq, hin, _⟩ := exec_frontEnd h
    exact .inr (.inr (.inl ⟨hgap, hin, w, rest, hag, hcmdq ▸ hq, by rw [hcmdq]; exact h⟩))
  · cases h
    exact .inl ⟨rfl, rfl, fun _ h => by simp [hag] at h⟩
  · obtain ⟨_, hcmdq, hin, _⟩ := exec_frontEnd h
    exact .inl ⟨hcmdq, hin, fun _ h => by simp [hag] at h⟩

/-- Settles O15: no arm of `exec` faults or refuses, and no move of a port does. -/
theorem nothingStops : Obligations.NothingStops := by
  have hexec (i : Instr) (s : State) : ∃ t, exec i s = .next t ∧ t.cfg = s.cfg := by
    obtain ⟨t, h⟩ := exec_next i s
    exact ⟨t, h, (exec_frontEnd h).1⟩
  refine ⟨hexec, fun s => ?_⟩
  suffices h : ∃ t, step s = .next t ∧ t.cfg = s.cfg by
    obtain ⟨t, ht, hcfg⟩ := h
    exact ⟨⟨t, ht⟩, fun u hu => Host.Outcome.next.inj (ht.symm.trans hu) ▸ hcfg⟩
  rcases step_cases s with ⟨_, e⟩ | ⟨_, rest, _, ⟨_, e⟩ | ⟨_, e⟩ | ⟨_, _, e⟩ | ⟨_, _, w, q, _, e⟩ | ⟨_, _, _, e⟩ |
    ⟨_, i, _, _, e⟩⟩ <;> rw [e]
  · exact ⟨_, rfl, rfl⟩
  · exact ⟨_, rfl, (acceptOp_stands _).1⟩
  · exact ⟨_, rfl, rfl⟩
  · exact ⟨_, rfl, rfl⟩
  · exact hexec (decodeCommand w) _
  · exact ⟨_, rfl, rfl⟩
  · exact hexec i _

/-- Settles O19: the frame of each kind of command. -/
theorem commandsKeepRunningState : Obligations.CommandsKeepRunningState := by
  intro i s t hi h
  obtain ⟨hrun, hbuf, hq, hin, hag, hcfg, hdraws, hout, hslots, hlfos, hnote⟩ := exec_commandFrame hi h
  exact ⟨hrun, hbuf, hq, hin, hag, hcfg, hdraws, hout, hslots, hlfos, hnote⟩

/-- Settles O31: the units before the amplitude unit write no parameter and nothing of the amplitude unit, and
that runs one machine. -/
theorem tickFrame : Obligations.TickFrame := by
  intro s t e n h
  obtain ⟨hcfg, hcmdq, hin, hag⟩ := exec_frontEnd h
  obtain ⟨hout, rfl⟩ | ⟨hbuf, rfl⟩ := exec_tick_cases h
  · simp [hout]
  · obtain ⟨hcur, henv, hgate⟩ := renderFrame_amp e n s
    refine ⟨params_renderFrame e n s, hcfg, ?_, hcmdq, hin, hag, fun _ => hcur, henv, fun hm => ?_⟩
    · obtain ⟨_, _, _, _, _, _, _, _, _, _, _, _, _, _, _, hr⟩ := renderFrame_frame e n s
      rw [hr]
    · obtain ⟨hlevel, hstage, hext, hsus, hns⟩ := hgate hm
      exact ⟨hlevel, hstage, hext, hsus, fun _ => hns⟩

/-- Settles O55: the clamp of step 4, or a stopped envelope at the floor. -/
theorem envelopeIsBounded : Obligations.EnvelopeIsBounded := by
  intro s hs
  obtain ⟨hlegal, hhigh⟩ := adsrTick_legal hs
  have hcfg : (adsrTick s).2.cfg = s.cfg := by
    obtain ⟨_, _, _, _, _, h⟩ := adsrTick_frame s
    rw [h]
  exact ⟨hcfg ▸ hlegal.envLow, hhigh⟩

/-- Settles O8: the port takes the word or not as `cmdqFull` says, which compares the length with the depth. -/
theorem controlPortAccepts : Obligations.ControlPortAccepts := by
  intro s w ws rest hag hin
  have htake (h : cmdqFull s = false) :
      step s = .next { s with agenda := rest, ctrlIn := ws, cmdq := s.cmdq ++ [w] } :=
    (step_accept hag).trans (congrArg _ (acceptOp_of_room hin h))
  have hkeep (h : cmdqFull s = true) : step s = .next { s with agenda := rest } :=
    (step_accept hag).trans (congrArg _ (acceptOp_of_full h))
  exact ⟨fun hd => htake (by simp [cmdqFull, hd]), fun n hd =>
    ⟨fun hlt => htake (by simpa [cmdqFull, hd] using hlt), fun hle => hkeep (by simpa [cmdqFull, hd] using hle)⟩⟩

/-- Settles O9: reset of the block at reset is the reset state, and of any other state has its registers. -/
theorem resetValues : Obligations.ResetValues :=
  ⟨atReset_resetOp State.reset, fun _ _ hag => ⟨_, step_reset hag, atReset_resetOp _, rfl⟩⟩

end Sys2Proof.Machine


/-! # Memory (20_memory.md)

The proofs of the statements about 20_memory.md. Running a queue against its words one after another turns on
one fact: a command reads and writes neither `CMDQ` nor the moves to come, so that it commutes with any change
of the two (`exec_withFront`). The ROM turns on another: an octave is the one below it, doubled
(`NearestToNote.octave`). -/

namespace Sys2Proof

/-! ### The note-frequency ROM -/

/-- `x` is within half a step of the frequency of note `k`, 440 × 2^((k - 69)/12), twelfth powers compared
(20_memory.md R71). -/
def NearestToNote (x : F32) (k : Nat) : Prop :=
  (2 * x.mag - 2 ^ (x.expo - 1)) ^ 12 * 2 ^ 69 ≤ (880 * F32.oneUnits) ^ 12 * 2 ^ k ∧
    (880 * F32.oneUnits) ^ 12 * 2 ^ k ≤ (2 * x.mag + 2 ^ (x.expo - 1)) ^ 12 * 2 ^ 69

/-- The next exponent doubles the magnitude of a normal value. -/
theorem F32.mag_of_next_expo {x y : F32} (hx : 0 < x.expo) (hexpo : y.expo = x.expo + 1)
    (hfrac : y.frac = x.frac) : y.mag = 2 * x.mag := by
  obtain ⟨e, he⟩ := Nat.exists_eq_add_of_lt hx
  rw [Nat.zero_add] at he
  simp only [F32.mag, hexpo, hfrac, he, Nat.succ_ne_zero, if_false, Nat.add_sub_cancel, Nat.pow_succ]
  ring

/-- Twelve notes up, the frequency and the step between neighbours are doubled. -/
theorem NearestToNote.octave {x y : F32} {k : Nat} (h : NearestToNote x k) (hx : 0 < x.expo)
    (hexpo : y.expo = x.expo + 1) (hfrac : y.frac = x.frac) : NearestToNote y (k + 12) := by
  have hmag : y.mag = 2 * x.mag := F32.mag_of_next_expo hx hexpo hfrac
  have hstep : 2 ^ (y.expo - 1) = 2 * 2 ^ (x.expo - 1) := by
    rw [hexpo, ← Nat.pow_succ']
    congr 1
    omega
  obtain ⟨hlow, hhigh⟩ := h
  simp only [NearestToNote, hmag, hstep, ← Nat.mul_sub, ← Nat.mul_add, Nat.mul_pow 2, Nat.pow_add 2 k 12]
  constructor
  · calc 2 ^ 12 * (2 * x.mag - 2 ^ (x.expo - 1)) ^ 12 * 2 ^ 69
        = 2 ^ 12 * ((2 * x.mag - 2 ^ (x.expo - 1)) ^ 12 * 2 ^ 69) := Nat.mul_assoc ..
      _ ≤ 2 ^ 12 * ((880 * F32.oneUnits) ^ 12 * 2 ^ k) := Nat.mul_le_mul_left _ hlow
      _ = (880 * F32.oneUnits) ^ 12 * (2 ^ k * 2 ^ 12) := by ring
  · calc (880 * F32.oneUnits) ^ 12 * (2 ^ k * 2 ^ 12)
        = 2 ^ 12 * ((880 * F32.oneUnits) ^ 12 * 2 ^ k) := by ring
      _ ≤ 2 ^ 12 * ((2 * x.mag + 2 ^ (x.expo - 1)) ^ 12 * 2 ^ 69) := Nat.mul_le_mul_left _ hhigh
      _ = 2 ^ 12 * (2 * x.mag + 2 ^ (x.expo - 1)) ^ 12 * 2 ^ 69 := (Nat.mul_assoc ..).symm

theorem nearestToNote_firstOctave : ∀ k : Fin 12, NearestToNote (Config.default.romRead k) k := by
  unfold NearestToNote
  decide +kernel

/-- The ROM repeats its fractions every octave, the exponent one higher. -/
theorem romRead_octave : ∀ k : Fin 116,
    0 < (Config.default.romRead k).expo ∧
      (Config.default.romRead (k + 12)).expo = (Config.default.romRead k).expo + 1 ∧
      (Config.default.romRead (k + 12)).frac = (Config.default.romRead k).frac := by
  decide +kernel

theorem nearestToNote_romRead (k : Nat) (hk : k < 128) : NearestToNote (Config.default.romRead k) k := by
  induction k using Nat.strong_induction_on with
  | _ k ih =>
    rcases Nat.lt_or_ge k 12 with hfirst | hge
    · exact nearestToNote_firstOctave ⟨k, hfirst⟩
    · obtain ⟨j, rfl⟩ := Nat.exists_eq_add_of_le' hge
      obtain ⟨hnormal, hexpo, hfrac⟩ := romRead_octave ⟨j, by omega⟩
      exact (ih j (by omega) (by omega)).octave hnormal hexpo hfrac

end Sys2Proof

namespace Sys2Proof.Machine

/-! ### The moves of the executor and of the render port -/

theorem step_idle {s : State} (h : s.agenda = []) : step s = .next s := by simp [step, fetch, h]

theorem step_execute_of_waiting {s : State} {rest : List Turn} (h : s.agenda = .execute :: rest)
    (hwait : s.inBuffer = true ∨ s.cmdq = []) : step s = .next { s with agenda := rest } := by
  rcases hwait with hbuf | hempty
  · simp [step, fetch, h, turnOp, executeOp, hbuf]
  · simp [step, fetch, h, turnOp, executeOp, hempty]

theorem step_execute_of_word {s : State} {w : CommandWord} {q : List CommandWord} {rest : List Turn}
    (hgap : s.inBuffer = false) (h : s.agenda = .execute :: rest) (hq : s.cmdq = w :: q) :
    step s = exec (decodeCommand w) { s with agenda := rest, cmdq := q } := by
  simp [step, fetch, h, turnOp, executeOp, hgap, hq]

theorem step_event {s : State} {e : EventCode} {rest : List Turn} {i : Instr} (h : s.agenda = .event e :: rest)
    (hi : decodeEvent e = some i) : step s = exec i { s with agenda := rest } := by
  simp [step, fetch, h, turnOp, hi]

theorem decode_event_eq_ok_iff {e : EventCode} {i : Instr} :
    decode (.event e) = .ok i ↔ decodeEvent e = some i := by
  cases h : decodeEvent e <;> simp [decode, h]

/-- A command word is a command, an opcode that is not listed included (30_encoding.md R105, R108). -/
theorem isCommand_decodeCommand (w : CommandWord) : (decodeCommand w).isCommand = true := by
  unfold decodeCommand decodeFields
  split <;> rfl

/-! ### Commands do not see the queue they stand in -/

/-- `s` with another queue and other moves to come. -/
def State.withFront (s : State) (q : List CommandWord) (moves : List Turn) : State :=
  { s with cmdq := q, agenda := moves }

/-- `g` neither reads nor writes the queue and the moves to come. -/
def FrontFree (g : State → State) : Prop :=
  ∀ (s : State) (q : List CommandWord) (moves : List Turn), g (s.withFront q moves) = (g s).withFront q moves

theorem onSlot_frontFree (idx : BitVec 8) (f : Slot → Slot) : FrontFree (onSlot idx f) := by
  intro s q moves
  unfold onSlot
  cases slotOf idx <;> rfl

theorem onLfo_frontFree (idx : BitVec 8) (f : Lfo → Lfo) : FrontFree (onLfo idx f) := by
  intro s q moves
  unfold onLfo
  cases lfoOf idx <;> rfl

theorem whenFinite_frontFree {v : F32} {g : State → State} (hg : FrontFree g) : FrontFree (whenFinite v g) := by
  intro s q moves
  unfold whenFinite
  split
  · exact hg s q moves
  · rfl

theorem noteOffOp_frontFree (n : BitVec 8) : FrontFree (noteOffOp n) := by
  intro s q moves
  rw [noteOffOp, noteOffOp, apply_ite (State.withFront · q moves)]
  rfl

theorem execFltPoles_withFront {p : Word32} {s t : State} (h : execFltPoles p s = .next t)
    (q : List CommandWord) (moves : List Turn) :
    execFltPoles p (s.withFront q moves) = .next (t.withFront q moves) := by
  cases h
  unfold execFltPoles
  cases polesOf p <;> rfl

/-- A command has the same effect whatever queue and moves stand behind it (20_memory.md R78). -/
theorem exec_withFront {i : Instr} {s t : State} (hi : i.isCommand = true) (h : exec i s = .next t)
    (q : List CommandWord) (moves : List Turn) :
    exec i (s.withFront q moves) = .next (t.withFront q moves) := by
  cases i with
  | bufStart | bufEnd | tick => cases hi
  | nop | resync | unisonEn | constLevel | ampMode | envAttack | envDecay | envRelease | envSustainLen |
    gateNoteLen | noteOn => cases h; rfl
  | oscShape | oscInterval => cases h; exact congrArg Host.Outcome.next (onSlot_frontFree _ _ s q moves)
  | oscLevel | oscShaper | oscParam0 | oscParam1 =>
    cases h; exact congrArg Host.Outcome.next (whenFinite_frontFree (onSlot_frontFree _ _) s q moves)
  | unisonSpread | outputLevel | envSustainLvl | gateDuty | fltCutoff | fltResonance =>
    cases h; exact congrArg Host.Outcome.next (whenFinite_frontFree (fun _ _ _ => rfl) s q moves)
  | noteOff n => cases h; exact congrArg Host.Outcome.next (noteOffOp_frontFree n s q moves)
  | fltPoles => exact execFltPoles_withFront h q moves
  | lfoEnable | lfoShape => cases h; exact congrArg Host.Outcome.next (onLfo_frontFree _ _ s q moves)
  | lfoFreq | lfoCenter | lfoWidth =>
    cases h; exact congrArg Host.Outcome.next (whenFinite_frontFree (onLfo_frontFree _ _) s q moves)

/-- Executor moves in a gap run the words at the head of the queue in order; what stands behind them waits
(20_memory.md R78, R81). -/
theorem runWords_take (n : Nat) : ∀ (s : State) (rest : List Turn), s.inBuffer = false → n ≤ s.cmdq.length →
    s.agenda = List.replicate n .execute ++ rest →
      runWords (s.cmdq.take n) (s.withFront (s.cmdq.drop n) rest) = .next (run n s) := by
  induction n with
  | zero =>
    rintro s _ _ _ rfl
    rfl
  | succ n ih =>
    intro s rest hgap hlen hag
    obtain ⟨w, q, hq⟩ := List.exists_cons_of_length_pos (Nat.zero_lt_of_lt hlen)
    have hcmd : (decodeCommand w).isCommand = true := isCommand_decodeCommand w
    have hstep := step_execute_of_word hgap hag hq
    obtain ⟨t, ht⟩ := exec_next (decodeCommand w) (s.withFront q (List.replicate n .execute ++ rest))
    have hhead : exec (decodeCommand w) (s.withFront (q.drop n) rest) = .next (t.withFront (q.drop n) rest) :=
      exec_withFront hcmd ht (q.drop n) rest
    have hrun : run (n + 1) s = run n t := by rw [run, hstep.trans ht]
    obtain ⟨_, hcmdq, _, hmoves⟩ := exec_frontEnd ht
    obtain rfl : t.cmdq = q := hcmdq
    have hgap' : t.inBuffer = false := (exec_commandFrame hcmd ht).inBuffer.trans hgap
    have hlen' : n ≤ t.cmdq.length := by simpa [hq] using hlen
    rw [hq, List.take_succ_cons, List.drop_succ_cons, runWords, hhead, hrun]
    exact ih t rest hgap' hlen' hmoves

/-! ### The statements -/

/-- Settles O12, by induction on the number of executor moves (`runWords_take`) over `exec_withFront`. -/
theorem anyPrefixRunsInOrder : Obligations.AnyPrefixRunsInOrder :=
  fun s n rest hgap hlen hag => runWords_take n s rest hgap hlen hag

/-- Settles O6: the move of each port; a placed word is the next one of its port. -/
theorem stepRunsDecoded : Obligations.StepRunsDecoded := by
  refine ⟨fun s w q rest i hgap hag hq hi => ?_, fun s e rest i hag hi => ?_, fun s w => ?_, fun s e i hi => ?_⟩
  · obtain rfl : decodeCommand w = i := Except.ok.inj hi
    exact step_execute_of_word hgap hag hq
  · exact step_event hag (decode_event_eq_ok_iff.1 hi)
  · exact step_execute_of_word (s := s.withPortWord (.command w)) rfl rfl rfl
  · exact step_event (s := s.withPortWord (.event e)) rfl hi

/-- Settles O7: a held or idle executor uses up its move and nothing else; with none to come the step is idle. -/
theorem bufferHoldsCommands : Obligations.BufferHoldsCommands :=
  ⟨fun _ _ hag hwait => step_execute_of_waiting hag hwait, fun _ hag => step_idle hag⟩

/-- Settles O40: the first octave entry by entry, the others by doubling (`nearestToNote_romRead`). -/
theorem romIsEqualTempered : Obligations.RomIsEqualTempered :=
  ⟨rfl, fun k => nearestToNote_romRead k k.isLt⟩

end Sys2Proof.Machine


/-! # Encoding (30_encoding.md)

The proofs of the statements about 30_encoding.md. A word is its fields, so that the decoder undoes the encoder
row by row (`decode_commandWord`, `decodeEvent_tickWord`) and reads no more of a word than its format names. The
silence after reset turns on what makes a block quiet (`State.Quiet`): then every unit of a frame gives its
silent value and leaves the state (`renderFrame_of_quiet`). -/

namespace Sys2Proof

open Laws.EncodeMatchesRow (opcField_commandWord evtField_eventWord)

/-! ### The fields of an encoded word -/

theorem idxField_commandWord (opc idx : BitVec 8) (p : Word32) : idxField (commandWord opc idx p) = idx :=
  calc idxField (commandWord opc idx p)
    _ = (opc ++ idx ++ (0 : BitVec 16)).extractLsb' 16 8 := BitVec.extractLsb'_append_eq_of_le (by decide)
    _ = (opc ++ idx).extractLsb' 0 8 := BitVec.extractLsb'_append_eq_of_le (by decide)
    _ = idx := BitVec.extractLsb'_append_eq_right

theorem payloadField_commandWord (opc idx : BitVec 8) (p : Word32) :
    payloadField (commandWord opc idx p) = p := BitVec.extractLsb'_append_eq_right

theorem noteEvField_eventWord (evt e : BitVec 2) (n : BitVec 8) : noteEvField (eventWord evt e n) = e :=
  (BitVec.extractLsb'_append_eq_of_le (Nat.le_refl 8)).trans BitVec.extractLsb'_append_eq_right

theorem noteNumField_eventWord (evt e : BitVec 2) (n : BitVec 8) : noteNumField (eventWord evt e n) = n :=
  BitVec.extractLsb'_append_eq_right

theorem payB_bitPayload (b : Bool) : payB (bitPayload b) = b := by cases b <;> rfl

theorem payN8_setWidth (n : BitVec 8) : payN8 (n.setWidth 32) = n :=
  (BitVec.extractLsb'_setWidth_of_le (by decide)).trans BitVec.extractLsb'_eq_self

theorem payC4_setWidth (c : BitVec 4) : payC4 (c.setWidth 32) = c :=
  (BitVec.extractLsb'_setWidth_of_le (by decide)).trans BitVec.extractLsb'_eq_self

/-! ### The decoder on encoded words -/

theorem decode_commandWord (opc idx : BitVec 8) (p : Word32) :
    decode (.command (commandWord opc idx p)) = .ok (decodeFields opc idx p) := by
  rw [decode, decodeCommand, opcField_commandWord, idxField_commandWord, payloadField_commandWord]

theorem decodeEvent_of_idle {e : EventCode} (h : evtField e = 0) : decodeEvent e = none := by
  rw [decodeEvent, h]; rfl

theorem decodeEvent_of_bufStart {e : EventCode} (h : evtField e = 1) : decodeEvent e = some .bufStart := by
  rw [decodeEvent, h]; rfl

theorem decodeEvent_of_tick {e : EventCode} (h : evtField e = 2) :
    decodeEvent e = some (.tick (noteEvField e) (noteNumField e)) := by
  rw [decodeEvent, h]; rfl

theorem decodeEvent_of_bufEnd {e : EventCode} (h : evtField e = 3) : decodeEvent e = some .bufEnd := by
  rw [decodeEvent, h]; rfl

theorem decodeEvent_tickWord (e : BitVec 2) (n : BitVec 8) :
    decodeEvent (eventWord 2 e n) = some (.tick e n) := by
  rw [decodeEvent_of_tick (evtField_eventWord ..), noteEvField_eventWord, noteNumField_eventWord]

/-! ### What the decoder reads -/

/-- Format N: neither the index nor the payload is read (30_encoding.md R101, R102). -/
theorem decodeFields_of_format_n {opc : BitVec 8} (h : Machine.formatOf opc = .n) (idx : BitVec 8) (p : Word32) :
    decodeFields opc idx p = decodeFields opc 0 0 := by
  unfold decodeFields
  split
  -- `NOP`, `RESYNC` and the unlisted opcodes have format N; every other row contradicts `h`.
  case h_1 | h_2 | h_31 => rfl
  all_goals simp_all [Machine.formatOf]

/-- Format P: the index is not read (30_encoding.md R101, R102). -/
theorem decodeFields_of_format_p {opc : BitVec 8} (h : Machine.formatOf opc = .p) (idx : BitVec 8) (p : Word32) :
    decodeFields opc idx p = decodeFields opc 0 p := by
  unfold decodeFields
  split
  -- The `OSC_*` and `LFO_*` rows with an index have format X and contradict `h`.
  case h_3 | h_4 | h_5 | h_6 | h_7 | h_8 | h_26 | h_27 | h_28 | h_29 | h_30 => simp_all [Machine.formatOf]
  all_goals rfl

/-- The opcodes between the rows of the map (30_encoding.md R106, R108). -/
def UnlistedOpcode (o : Nat) : Prop :=
  (0x02 ≤ o ∧ o ≤ 0x0F) ∨ (0x19 ≤ o ∧ o ≤ 0x1F) ∨ o = 0x29 ∨ (0x2C ≤ o ∧ o ≤ 0x2F) ∨
    (0x33 ≤ o ∧ o ≤ 0x3F) ∨ 0x45 ≤ o

theorem decodeFields_of_unlisted {opc : BitVec 8} (h : UnlistedOpcode opc.toNat) (idx : BitVec 8) (p : Word32) :
    decodeFields opc idx p = .nop := by
  unfold UnlistedOpcode at h
  unfold decodeFields
  split
  case h_31 => rfl
  all_goals omega

theorem toNat_opcField (w : CommandWord) : (opcField w).toNat = (w >>> 56).toNat := by
  have := w.isLt
  simp only [opcField, BitVec.extractLsb'_toNat, BitVec.toNat_ushiftRight, Nat.shiftRight_eq_div_pow]
  omega

/-! ### The range of the bypass -/

theorem Config.wf_nfBypass {c : Config} (h : c.wf = true) : c.nfBypass.le F32.one = true := by
  simp only [Config.wf, Bool.and_eq_true] at h
  tauto

end Sys2Proof

namespace Sys2Proof.F32

/-! ### Signed zeros -/

theorem zero_add_signedZero (neg : Bool) : zero.add (pack neg 0) = zero := by cases neg <;> decide

theorem roundMag_zero (den : Nat) : roundMag 0 den = 0 := by simp [roundMag, Nat.log2_zero]

theorem isFinite_zero : zero.isFinite = true := by decide

theorem mul_zero_of_isFinite {a : F32} (ha : a.isFinite = true) : ∃ neg, a.mul zero = pack neg 0 :=
  ⟨a.sign != zero.sign, by
    simp [mul, isNaN_of_finite, isInf_of_finite, ha, isFinite_zero, show zero.mag = 0 from rfl, roundMag_zero]⟩

theorem zero_div_of_isZero_eq_false {b : F32} (hn : b.isNaN = false) (hz : b.isZero = false) :
    ∃ neg, zero.div b = pack neg 0 :=
  ⟨zero.sign != b.sign, by
    simp [div, isNaN_of_finite, isInf_of_finite, hn, hz, isFinite_zero, show zero.mag = 0 from rfl, roundMag_zero]⟩

/-- A difference that is not 0 does not round to 0: the least subnormal is nearer to it. -/
theorem isZero_sub_of_units_lt {a b : F32} (ha : a.isFinite = true) (hb : b.isFinite = true)
    (h : b.units < a.units) : (a.sub b).isZero = false := by
  obtain ⟨_, hnear, _⟩ := isNearest_sub ha hb
  rw [← Bool.not_eq_true, ← units_eq_zero_iff]
  intro hz
  have hfin : (a.sub b).isFinite = true := by
    rw [isFinite_iff, (isZero_iff _).1 ((units_eq_zero_iff _).1 hz)]
    decide
  obtain ⟨hclose, _⟩ := hnear hfin ⟨1⟩ (by decide)
  rw [hz, show (⟨1⟩ : F32).units = 1 from rfl] at hclose
  omega

end Sys2Proof.F32

namespace Sys2Proof.Machine

open Laws.EncodeMatchesRow (evtField_eventWord)

/-! ### Note events and idle codes -/

/-- No note event, the reserved `NOTE_EV` included (30_encoding.md R107). -/
theorem noteSideband_of_none {e : BitVec 2} (h : e = 0 ∨ e = 3) (n : BitVec 8) (s : State) :
    noteSideband e n s = s := by
  rcases h with rfl | rfl <;> rfl

theorem step_event_of_idle {s : State} {e : EventCode} {rest : List Turn} (h : s.agenda = .event e :: rest)
    (hidle : decodeEvent e = none) : step s = .next { s with agenda := rest } := by
  simp [step, fetch, h, turnOp, hidle]

/-! ### A quiet block -/

/-- Nothing sounds and nothing runs: the LFOs are disabled, the levels, the resonance and the integrators are
0, and the envelope is stopped without a trigger (70_reset_and_hazards.md R381). The other registers hold
anything. -/
structure State.Quiet (s : State) : Prop where
  bypass : s.cfg.nfBypass.le F32.one = true
  lfos : ∀ i : Fin 8, s.lfos[i].en = false
  levels : ∀ i : Fin 4, s.slots[i].level = F32.zero
  resonance : s.fltQ = F32.zero
  buf0 : ∀ k : Fin 3, s.buf0[k] = F32.zero
  buf1 : ∀ k : Fin 3, s.buf1[k] = F32.zero
  ampMode : s.ampMode = .envelope
  noteState : s.noteState = .rest
  envExt : s.envExt = .stopped

/-- The record of a silent frame (70_reset_and_hazards.md R381). -/
def OutRecord.silent : OutRecord :=
  { sig := F32.zero, amp := .stopped, noteAdvance := false, lfoPan := none, lfoTrem := none,
    lfoPhaser := none, lfoFlt := none, oscMod := Vector.replicate 4 none, mix := F32.zero,
    y := Vector.replicate 4 F32.zero }

theorem State.quiet_resetOf {c : Config} (hc : c.wf = true) : (State.resetOf c).Quiet where
  bypass := Config.wf_nfBypass hc
  lfos _ := congrArg Lfo.en (Vector.getElem_replicate ..)
  levels _ := congrArg Slot.level (Vector.getElem_replicate ..)
  resonance := rfl
  buf0 _ := Vector.getElem_replicate ..
  buf1 _ := Vector.getElem_replicate ..
  ampMode := rfl
  noteState := rfl
  envExt := rfl

section
variable {s : State} (hs : s.Quiet)
include hs

theorem consult_of_quiet (i : Fin 8) : consult i s = (none, s) := by
  have hoff : needed i s = false := by rw [needed, hs.lfos i]; rfl
  simp [consult, hoff]

theorem consultMods_of_quiet : consultMods s = (Vector.replicate 4 none, s) := by
  simp only [consultMods, consult_of_quiet hs]; rfl

theorem slotTick_of_quiet (i : Fin 4) (m : Option F32) : slotTick i m s = (F32.zero, s) := by
  rcases slotTick_cases i m s with ⟨_, h⟩ | ⟨⟨h, _⟩, _⟩
  · exact h
  · rw [hs.levels i] at h
    exact absurd h (by decide)

theorem slotTicks_of_quiet (m : Vector (Option F32) 4) :
    slotTicks m s = (Vector.replicate 4 F32.zero, s) := by
  simp only [slotTicks, slotTick_of_quiet hs]; rfl

theorem mixValue_of_quiet : mixValue (Vector.replicate 4 F32.zero) s = F32.zero := by
  have hlevel (i : Nat) (hi : i < 4) : s.slots[i].level = F32.zero := hs.levels ⟨i, hi⟩
  simp only [mixValue, hlevel]
  cases s.constLevel <;> decide +kernel

theorem mixer_of_quiet : mixer (Vector.replicate 4 F32.zero) s = (F32.zero, s) := by
  rw [mixer, mixValue_of_quiet hs]; rfl

theorem ampTick_of_quiet : ampTick s = ((.stopped, false), s) := by
  have hnote : inspectNote s = s := by simp only [inspectNote, hs.noteState]
  simp only [ampTick, adsrTick, hs.ampMode, hnote, hs.envExt]

end

/-! ### A filter at rest -/

/-- Below the bypass the normalised frequency is held in [0, 1) (42_filter.md R251, R252). -/
theorem inUnit_clampNf {nf bypass : F32} (hb : bypass.le F32.one = true) (h : nf.lt bypass = true) :
    inUnit (clampNf nf) = true := by
  obtain ⟨_, _, hle⟩ := F32.le_iff.1 hb
  obtain ⟨hnan, _, hlt⟩ := F32.lt_iff.1 h
  rw [F32.units_one] at hle
  unfold clampNf
  split
  case isTrue => decide +kernel
  case isFalse hneg =>
    rw [Bool.not_eq_true] at hneg
    obtain ⟨_, _, hnonneg⟩ := F32.le_iff.1 (F32.le_of_not_lt hnan (by decide) hneg)
    exact F32.inUnit_iff.2 ⟨hnan, hnonneg, hlt.trans_le hle⟩

/-- A resonance of 0 feeds nothing back: `1.0 - nf` is not 0 (42_filter.md R252). -/
theorem feedback_zero {nf : F32} (h : inUnit nf = true) : feedback F32.zero nf = F32.zero := by
  have hfin := F32.isFinite_of_inUnit h
  obtain ⟨_, _, hlt⟩ := F32.inUnit_iff.1 h
  have hone : F32.one.isFinite = true := by decide
  obtain ⟨neg, hdiv⟩ := F32.zero_div_of_isZero_eq_false (F32.isNaN_sub hone hfin)
    (F32.isZero_sub_of_units_lt hone hfin (F32.units_one ▸ hlt))
  rw [feedback, hdiv, F32.zero_add_signedZero]

/-- A stage at rest, given 0, stays at rest and gives 0 (42_filter.md R252). -/
theorem stage_zero {nf : F32} (h : inUnit nf = true) (n : Nat) :
    stage nf F32.zero F32.zero F32.zero F32.zero n = ⟨F32.zero, F32.zero, n⟩ := by
  obtain ⟨neg, hmul⟩ := F32.mul_zero_of_isFinite (F32.isFinite_of_inUnit h)
  have hdiff : F32.zero.sub F32.zero = F32.zero := by decide
  have hband : F32.zero.add (F32.zero.mul F32.zero) = F32.zero := by decide +kernel
  have hdraw : drawNaN F32.zero n = ⟨F32.zero, n⟩ := rfl
  simp only [stage, hdiff, hband, hmul, F32.zero_add_signedZero, hdraw]

section
variable {s : State} (hs : s.Quiet)
include hs

theorem setStage_of_quiet (k : Fin 3) : s.setStage k F32.zero F32.zero = s := by
  have h0 : s.buf0.set k F32.zero = s.buf0 := by rw [← hs.buf0 k]; exact Vector.set_getElem_self _
  have h1 : s.buf1.set k F32.zero = s.buf1 := by rw [← hs.buf1 k]; exact Vector.set_getElem_self _
  rw [State.setStage, h0, h1]

theorem cascade_of_quiet {nf : F32} (h : inUnit nf = true) (ks : List (Fin 3)) :
    cascade nf F32.zero ks F32.zero s = (F32.zero, s) := by
  induction ks with
  | nil => rfl
  | cons k ks ih =>
    rw [cascade, hs.buf0 k, hs.buf1 k, stage_zero h, setStage_of_quiet hs]
    exact ih

theorem filterTick_of_quiet (v2 : Option F32) : filterTick F32.zero v2 s = (F32.zero, s) := by
  rcases filterTick_cases F32.zero v2 s with ⟨_, h⟩ | ⟨hlt, h⟩
  · exact h
  · have hnf := inUnit_clampNf hs.bypass hlt
    rw [h, hs.resonance, feedback_zero hnf, cascade_of_quiet hs hnf]

/-! ### Frames of a quiet block -/

/-- A frame without a note event answers silence and changes nothing (70_reset_and_hazards.md R381). -/
theorem renderFrame_of_quiet {e : BitVec 2} (he : e = 0 ∨ e = 3) (n : BitVec 8) :
    renderFrame e n s = s.emit .silent := by
  simp only [renderFrame, noteSideband_of_none he, consultMods_of_quiet hs, slotTicks_of_quiet hs,
    mixer_of_quiet hs, consult_of_quiet hs, filterTick_of_quiet hs, ampTick_of_quiet hs]
  rfl

end

theorem exec_tick_of_inBuffer {s : State} (h : s.inBuffer = true) (e : BitVec 2) (n : BitVec 8) :
    exec (.tick e n) s = .next (renderFrame e n s) := by simp [exec, execTick, h]

theorem step_tick_of_quiet {s : State} (hs : s.Quiet) (hbuf : s.inBuffer = true) {e : EventCode}
    {rest : List Turn} (hag : s.agenda = .event e :: rest) (htick : evtField e = 2)
    (hnone : noteEvField e = 0 ∨ noteEvField e = 3) :
    step s = .next { s with agenda := rest, out := s.out ++ [.silent] } := by
  have hmoved : State.Quiet { s with agenda := rest } := { hs with }
  have htake := exec_tick_of_inBuffer (s := { s with agenda := rest }) hbuf (noteEvField e) (noteNumField e)
  rw [step_event hag (decodeEvent_of_tick htick), htake, renderFrame_of_quiet hmoved hnone]
  rfl

theorem run_ticks_of_quiet (es : List EventCode) : ∀ (s : State) (rest : List Turn), s.Quiet →
    s.inBuffer = true → s.agenda = es.map .event ++ rest →
    (∀ e ∈ es, evtField e = 2 ∧ (noteEvField e = 0 ∨ noteEvField e = 3)) →
      run es.length s =
        { s with agenda := rest, out := s.out ++ List.replicate es.length .silent } := by
  induction es with
  | nil =>
    rintro s _ _ _ rfl _
    rw [List.length_nil, List.replicate_zero, List.append_nil]
    rfl
  | cons e es ih =>
    intro s rest hs hbuf hag hes
    obtain ⟨⟨htick, hnone⟩, hes⟩ := List.forall_mem_cons.1 hes
    have hstep := step_tick_of_quiet hs hbuf hag htick hnone
    rw [List.length_cons, run, hstep]
    refine (ih { s with agenda := es.map .event ++ rest, out := s.out ++ [.silent] } rest { hs with } hbuf rfl
      hes).trans ?_
    rw [List.append_assoc, List.singleton_append, List.replicate_succ]

/-! ### The statements -/

/-- Settles O1, row by row: the fields of the encoded word are those it was made of, and the payload types
B, N8 and C4 read back the operand that was widened. -/
theorem decodeEncodeAgree : Obligations.DecodeEncodeAgree := by
  intro i
  cases i with
  | nop | resync | oscLevel | oscShaper | oscInterval | oscParam0 | oscParam1 | unisonSpread | outputLevel |
    envAttack | envDecay | envRelease | envSustainLen | envSustainLvl | gateDuty | gateNoteLen | fltCutoff |
    fltResonance | fltPoles | lfoFreq | lfoCenter | lfoWidth => exact decode_commandWord ..
  | unisonEn b | constLevel b | ampMode b | lfoEnable _ b =>
    exact (decode_commandWord ..).trans (by simp [decodeFields, payB_bitPayload])
  | noteOn n | noteOff n =>
    exact (decode_commandWord ..).trans (by simp [decodeFields, payN8_setWidth])
  | oscShape _ c | lfoShape _ c =>
    exact (decode_commandWord ..).trans (by simp [decodeFields, payC4_setWidth])
  | bufStart => exact decode_event_eq_ok_iff.2 (decodeEvent_of_bufStart (evtField_eventWord ..))
  | tick => exact decode_event_eq_ok_iff.2 (decodeEvent_tickWord ..)
  | bufEnd => exact decode_event_eq_ok_iff.2 (decodeEvent_of_bufEnd (evtField_eventWord ..))

/-- Settles O2, by the format of the common opcode: `RSV` is no field of the decoder, format P reads no
index and format N neither index nor payload (`decodeFields_of_format_p`, `decodeFields_of_format_n`). -/
theorem decodeIgnoresUnreadBits : Obligations.DecodeIgnoresUnreadBits := by
  intro w v hopc hidx hpay
  change opcField w = opcField v at hopc
  change formatOf (opcField w) = .x → idxField w = idxField v at hidx
  change formatOf (opcField w) ≠ .n → payloadField w = payloadField v at hpay
  unfold decodeCommand
  rw [← hopc]
  cases hf : formatOf (opcField w) with
  | n => rw [decodeFields_of_format_n hf, decodeFields_of_format_n hf (idxField v)]
  | p =>
    rw [decodeFields_of_format_p hf, decodeFields_of_format_p hf (idxField v), hpay (by simp [hf])]
  | x => rw [hidx hf, hpay (by simp [hf])]

/-- Settles O3: the executor takes the word, and an unlisted opcode decodes to `NOP`. -/
theorem unlistedOpcodesAreNop : Obligations.UnlistedOpcodesAreNop := by
  intro s w q rest hgap hq hag ho
  have hnop : decodeCommand w = .nop := decodeFields_of_unlisted ((toNat_opcField w).symm ▸ ho) ..
  rw [step_execute_of_word hgap hag hq, hnop]
  rfl

/-- Settles O21, by induction on the `TICK`s (`run_ticks_of_quiet`): the reset state is quiet. -/
theorem silentAfterReset : Obligations.SilentAfterReset := by
  intro c es rest hc hes
  have hquiet := State.quiet_resetOf hc
  have hbuffer : State.Quiet { State.resetOf c with inBuffer := true, agenda := es.map .event ++ rest } :=
    { hquiet with }
  exact run_ticks_of_quiet es _ rest hbuffer rfl rfl hes

/-- Settles O4: the event by the field `EVT`, the note event by the value of `NOTE_EV`. -/
theorem eventCodes : Obligations.EventCodes := by
  intro e n
  have hidle := decodeEvent_of_idle (evtField_eventWord 0 e n)
  exact ⟨hidle, decodeEvent_of_bufStart (evtField_eventWord 1 e n), decodeEvent_tickWord e n,
    decodeEvent_of_bufEnd (evtField_eventWord 3 e n), fun _ _ hag => step_event_of_idle hag hidle,
    fun s => ⟨noteSideband_of_none (.inl rfl) n s, rfl, rfl, noteSideband_of_none (.inr rfl) n s⟩⟩

/-- Settles O5, by evaluating the decoder on each word. -/
theorem knownWordsDecode : Obligations.KnownWordsDecode := by
  unfold Obligations.KnownWordsDecode
  decide

end Sys2Proof.Machine


/-! # Oscillator bank (40_oscillator.md)

The proofs of the statements about 40_oscillator.md. The bounds of the waves and of the saturator rest on one fact:
rounding to nearest does not leave an interval whose ends are finite f32 values (`F32.IsNearest.between`).
`F32.Within l h` is that interval for integers `l` and `h`, and every operation has its rule for it. -/

namespace Sys2Proof.F32

/-! ### Rounding between bounds -/

/-- A value is its exact value and its sign, which tells the two zeros apart. -/
theorem ext_units_sign {a b : F32} (hu : a.units = b.units) (hs : a.sign = b.sign) : a = b := by
  refine ext_sign_pat hs (patMag_strictMono.injective ?_)
  rw [← mag_eq_patMag, ← mag_eq_patMag, ← natAbs_units, ← natAbs_units, hu]

theorem mag_neg (a : F32) : a.neg.mag = a.mag := by rw [mag_eq_patMag, mag_eq_patMag, pat_neg]

theorem abs_neg (a : F32) : a.neg.abs = a.abs := by rw [abs_eq, abs_eq, pat_neg]

theorem units_abs (a : F32) : a.abs.units = a.mag := by
  rw [abs_eq, units_pack _ a.pat_lt, signed_false, mag_eq_patMag]

theorem isFinite_abs (a : F32) : a.abs.isFinite = a.isFinite := by
  rw [Bool.eq_iff_iff, isFinite_iff, isFinite_iff, abs_eq, pat_pack _ a.pat_lt]

/-- Rounding to nearest does not leave an interval between two finite values. -/
theorem IsNearest.between {r lo hi : F32} {num den : Int} (h : IsNearest r num den) (hden : 0 < den)
    (hlo : lo.isFinite = true) (hhi : hi.isFinite = true) (hle : lo.units * den ≤ num)
    (hge : num ≤ hi.units * den) : r.isFinite = true ∧ lo.units ≤ r.units ∧ r.units ≤ hi.units := by
  have hfin : r.isFinite = true := by
    refine h.isFinite ?_
    have h1 := Nat.mul_lt_mul_of_pos_right (mag_lt_overflow hlo) (Int.natAbs_pos.2 hden.ne')
    have h2 := Nat.mul_lt_mul_of_pos_right (mag_lt_overflow hhi) (Int.natAbs_pos.2 hden.ne')
    rw [← natAbs_units, ← Int.natAbs_mul] at h1 h2
    omega
  obtain ⟨_, hnear, _, _⟩ := h
  obtain ⟨hcloseLo, _⟩ := hnear hfin lo hlo
  obtain ⟨hcloseHi, _⟩ := hnear hfin hi hhi
  refine ⟨hfin, le_of_mul_le_mul_right ?_ hden, le_of_mul_le_mul_right ?_ hden⟩ <;> omega

/-- `l ≤ a ≤ h` for a finite value and integers `l`, `h`. -/
structure Within (l h : Int) (a : F32) : Prop where
  finite : a.isFinite = true
  low : l * oneUnits ≤ a.units
  high : a.units ≤ h * oneUnits

theorem IsNearest.within {r : F32} {num den l h : Int} (hr : IsNearest r num den) (hden : 0 < den)
    (hl : l.natAbs < 2 ^ 24) (hh : h.natAbs < 2 ^ 24) (hle : l * oneUnits * den ≤ num)
    (hge : num ≤ h * oneUnits * den) : Within l h r := by
  obtain ⟨lo, hlo, elo⟩ := exists_units_of_natAbs_lt hl
  obtain ⟨hi, hhi, ehi⟩ := exists_units_of_natAbs_lt hh
  obtain ⟨hfin, h1, h2⟩ := hr.between hden hlo hhi (elo ▸ hle) (ehi ▸ hge)
  exact ⟨hfin, elo ▸ h1, ehi ▸ h2⟩

/-- The value of a finite pattern that is an integer. -/
theorem within_of_units_eq {a : F32} {n : Int} (ha : a.isFinite = true) (h : a.units = n * oneUnits) :
    Within n n a := ⟨ha, h.ge, h.le⟩

theorem Within.mono {a : F32} {l h l' h' : Int} (ha : Within l h a) (hl : l' ≤ l) (hh : h ≤ h') :
    Within l' h' a where
  finite := ha.finite
  low := (mul_le_mul_of_nonneg_right hl oneUnits_pos.le).trans ha.low
  high := ha.high.trans (mul_le_mul_of_nonneg_right hh oneUnits_pos.le)

theorem Within.add {a b : F32} {l h l' h' : Int} (ha : Within l h a) (hb : Within l' h' b)
    (hl : (l + l').natAbs < 2 ^ 24) (hh : (h + h').natAbs < 2 ^ 24) : Within (l + l') (h + h') (a.add b) := by
  refine (isNearest_add ha.finite hb.finite).within one_pos hl hh ?_ ?_ <;> rw [mul_one, add_mul]
  · exact add_le_add ha.low hb.low
  · exact add_le_add ha.high hb.high

theorem Within.neg {a : F32} {l h : Int} (ha : Within l h a) : Within (-h) (-l) a.neg where
  finite := (isFinite_neg a).trans ha.finite
  low := by rw [units_neg, neg_mul]; exact neg_le_neg ha.high
  high := by rw [units_neg, neg_mul]; exact neg_le_neg ha.low

theorem Within.sub {a b : F32} {l h l' h' : Int} (ha : Within l h a) (hb : Within l' h' b)
    (hl : (l - h').natAbs < 2 ^ 24) (hh : (h - l').natAbs < 2 ^ 24) : Within (l - h') (h - l') (a.sub b) :=
  ha.add hb.neg hl hh

/-- A product by an integer is bounded by the bounds of the exact product. -/
theorem within_mul_of_units_eq {k p : F32} {n l h : Int} (hk : k.isFinite = true)
    (hkn : k.units = n * oneUnits) (hp : p.isFinite = true) (hl : l.natAbs < 2 ^ 24) (hh : h.natAbs < 2 ^ 24)
    (hle : l * oneUnits ≤ n * p.units) (hge : n * p.units ≤ h * oneUnits) : Within l h (k.mul p) := by
  refine (isNearest_mul hk hp).within oneUnits_pos hl hh ?_ ?_ <;> rw [hkn, mul_right_comm n]
  · exact mul_le_mul_of_nonneg_right hle oneUnits_pos.le
  · exact mul_le_mul_of_nonneg_right hge oneUnits_pos.le

/-- The magnitude of a product is at most the product of the bounds. -/
theorem Within.mul {a b : F32} {m n : Int} (ha : Within (-m) m a) (hb : Within (-n) n b)
    (h : (m * n).natAbs < 2 ^ 24) : Within (-(m * n)) (m * n) (a.mul b) := by
  have ha' : |a.units| ≤ m * oneUnits := abs_le.2 ⟨by have := ha.low; linarith, ha.high⟩
  have hb' : |b.units| ≤ n * oneUnits := abs_le.2 ⟨by have := hb.low; linarith, hb.high⟩
  have hab := mul_le_mul ha' hb' (abs_nonneg _) ((abs_nonneg _).trans ha')
  rw [← abs_mul, abs_le] at hab
  refine (isNearest_mul ha.finite hb.finite).within oneUnits_pos (by simpa using h) h ?_ ?_
  · linarith [hab.1]
  · linarith [hab.2]

theorem Within.mul_of_nonneg {a b : F32} {m n : Int} (ha : Within 0 m a) (hb : Within 0 n b)
    (h : (m * n).natAbs < 2 ^ 24) : Within 0 (m * n) (a.mul b) := by
  have ha0 : 0 ≤ a.units := by simpa using ha.low
  have hb0 : 0 ≤ b.units := by simpa using hb.low
  refine (isNearest_mul ha.finite hb.finite).within oneUnits_pos (by decide) h ?_ ?_
  · simpa using mul_nonneg ha0 hb0
  · have := mul_le_mul ha.high hb.high hb0 (ha0.trans ha.high)
    linarith

theorem isZero_of_units_pos {a : F32} (h : 0 < a.units) : a.isZero = false := by
  rw [← Bool.not_eq_true, ← units_eq_zero_iff]; exact h.ne'

/-- A quotient of a magnitude at most the divisor's lies in [-1, 1]. -/
theorem within_div_of_abs_le {a b : F32} (ha : a.isFinite = true) (hb : b.isFinite = true)
    (hpos : 0 < b.units) (h : |a.units| ≤ b.units) : Within (-1) 1 (a.div b) := by
  have hz := isZero_of_units_pos hpos
  obtain ⟨hlow, hhigh⟩ := abs_le.1 h
  refine (isNearest_div ha hb hz).within hpos (by decide) (by decide) ?_ ?_
  · rw [neg_one_mul, neg_mul, mul_comm (oneUnits : Int), ← neg_mul]
    exact mul_le_mul_of_nonneg_right hlow oneUnits_pos.le
  · rw [one_mul, mul_comm (oneUnits : Int)]
    exact mul_le_mul_of_nonneg_right hhigh oneUnits_pos.le

theorem Within.div {a b : F32} {n : Int} (ha : Within (-n) n a) (hb : Within n n b) (hn : 0 < n) :
    Within (-1) 1 (a.div b) := by
  have hlow := ha.low
  rw [neg_mul] at hlow
  have hb0 : n * oneUnits ≤ b.units := hb.low
  exact within_div_of_abs_le ha.finite hb.finite ((mul_pos hn oneUnits_pos).trans_le hb0)
    (abs_le.2 ⟨by omega, ha.high.trans hb0⟩)

/-- `|a| ≤ 1.0` says that the exact value lies in [-1, 1]. -/
theorem abs_le_one_iff (a : F32) : a.abs.le one = true ↔ Within (-1) 1 a := by
  have hone : one.isNaN = false := by decide
  rw [le_iff, units_one, units_abs, isNaN_abs, ← natAbs_units]
  constructor
  · rintro ⟨hn, _, h⟩
    have hlt : oneUnits < 2 ^ 277 := by decide +kernel
    exact ⟨isFinite_of_natAbs_lt hn (by omega), by omega, by omega⟩
  · rintro ⟨hfin, hlow, hhigh⟩
    exact ⟨isNaN_of_finite hfin, hone, by omega⟩

theorem within_one : Within 1 1 one := within_of_units_eq (by decide) (by decide +kernel)

theorem within_zero : Within 0 0 zero := within_of_units_eq (by decide) (by decide +kernel)

theorem Within.abs {a : F32} {n : Int} (ha : Within (-n) n a) : Within 0 n a.abs where
  finite := (isFinite_abs a).trans ha.finite
  low := by rw [units_abs]; omega
  high := by
    have := ha.low
    have := ha.high
    rw [neg_mul] at *
    rw [units_abs, ← natAbs_units]
    omega

theorem within_of_inUnit {p : F32} (h : inUnit p = true) : Within 0 1 p := by
  obtain ⟨_, h0, h1⟩ := inUnit_iff.1 h
  exact ⟨isFinite_of_inUnit h, by simpa using h0, by simpa using h1.le⟩

/-! ### One plus a finite value -/

/-- No overflow: 1 is far below half a unit of the largest finite value. -/
theorem isFinite_one_add {a : F32} (ha : a.isFinite = true) : (one.add a).isFinite = true := by
  refine (isNearest_add (by decide) ha).isFinite ?_
  have hle : a.mag ≤ patMag (infMag - 1) := by
    rw [mag_eq_patMag]
    exact patMag_strictMono.monotone (Nat.le_sub_one_of_lt ((isFinite_iff a).1 ha))
  have hroom : oneUnits + patMag (infMag - 1) < 2 ^ 277 - 2 ^ 252 := by decide +kernel
  have htri := Int.natAbs_add_le one.units a.units
  rw [natAbs_units a, units_one, Int.natAbs_natCast] at htri
  rw [units_one, Int.natAbs_one, Nat.mul_one]
  omega

/-- A sum of finite values depends on their exact sum only, the sign of a zero apart. -/
theorem units_add_congr {a b a' b' : F32} (ha : a.isFinite = true) (hb : b.isFinite = true)
    (ha' : a'.isFinite = true) (hb' : b'.isFinite = true) (h : a.units + b.units = a'.units + b'.units) :
    (a.add b).units = (a'.add b').units := by
  simp only [add, isNaN_of_finite, isInf_of_finite, ha, hb, ha', hb', h, Bool.or_self, Bool.false_eq_true,
    if_false]
  split
  · rw [units_pack _ (by decide), units_pack _ (by decide)]
    cases (a.sign && b.sign) <;> cases (a'.sign && b'.sign) <;> rfl
  · rfl

/-- Rounding keeps the order of exact sums. -/
theorem units_add_mono {a b a' b' : F32} (ha : a.isFinite = true) (hb : b.isFinite = true)
    (ha' : a'.isFinite = true) (hb' : b'.isFinite = true) (hr : (a.add b).isFinite = true)
    (hr' : (a'.add b').isFinite = true) (h : a.units + b.units ≤ a'.units + b'.units) :
    (a.add b).units ≤ (a'.add b').units := by
  rcases h.eq_or_lt with heq | hlt
  · exact (units_add_congr ha hb ha' hb' heq).le
  · obtain ⟨_, hnear, _⟩ := isNearest_add ha hb
    obtain ⟨_, hnear', _⟩ := isNearest_add ha' hb'
    obtain ⟨hclose, _⟩ := hnear hr _ hr'
    obtain ⟨hclose', _⟩ := hnear' hr' _ hr
    omega

theorem units_zero_add {a : F32} (ha : a.isFinite = true) :
    (zero.add a).isFinite = true ∧ (zero.add a).units = a.units :=
  (isNearest_add isFinite_zero ha).exact one_ne_zero ha (by rw [units_zero, zero_add, mul_one])

/-- `|1 + x| ≤ 1 + d` after rounding, for `|x| ≤ d`. -/
theorem abs_units_one_add_le {x d : F32} (hx : x.isFinite = true) (hd : d.isFinite = true)
    (h : |x.units| ≤ d.units) : |(one.add x).units| ≤ (one.add d).units := by
  have hone : one.isFinite = true := by decide
  have hnegd : d.neg.isFinite = true := (isFinite_neg d).trans hd
  have hpos := oneUnits_pos
  obtain ⟨hlow, hhigh⟩ := abs_le.1 h
  obtain ⟨hdfin, hdval⟩ := units_zero_add hd
  obtain ⟨hnegfin, hnegval⟩ := units_zero_add hnegd
  have habove : d.units ≤ (one.add d).units := hdval ▸
    units_add_mono isFinite_zero hd hone hd hdfin (isFinite_one_add hd) (by rw [units_zero, units_one]; omega)
  have hbelow : -d.units ≤ (one.add x).units := units_neg d ▸ hnegval ▸
    units_add_mono isFinite_zero hnegd hone hx hnegfin (isFinite_one_add hx)
      (by rw [units_zero, units_one, units_neg]; omega)
  exact abs_le.2 ⟨by omega,
    units_add_mono hone hx hone hd (isFinite_one_add hx) (isFinite_one_add hd) (by omega)⟩

/-- One plus a value that is not negative is above 0. -/
theorem units_one_add_pos {a : F32} (ha : a.isFinite = true) (h : 0 ≤ a.units) : 0 < (one.add a).units := by
  have hone : one.isFinite = true := by decide
  have hsum : (one.add zero).units = oneUnits := by decide +kernel
  have hle := units_add_mono hone isFinite_zero hone ha (isFinite_one_add isFinite_zero) (isFinite_one_add ha)
    (by rw [units_zero]; omega)
  exact oneUnits_pos.trans_le (hsum ▸ hle)

/-- A product by a factor in [-1, 1] is no larger than the other operand. -/
theorem abs_units_mul_le {a b : F32} (ha : a.isFinite = true) (hb : Within (-1) 1 b) :
    (a.mul b).isFinite = true ∧ |(a.mul b).units| ≤ a.abs.units := by
  have hunit : |b.units| ≤ (oneUnits : Int) := abs_le.2 ⟨by have := hb.low; omega, by have := hb.high; omega⟩
  have hab := abs_le.1 ((abs_mul a.units b.units).le.trans
    (mul_le_mul_of_nonneg_left hunit (abs_nonneg a.units)))
  have hmag : |a.units| = a.abs.units := by rw [units_abs, ← natAbs_units, Int.natCast_natAbs]
  rw [hmag] at hab
  have hfin := (isFinite_abs a).trans ha
  obtain ⟨hr, h1, h2⟩ := (isNearest_mul ha hb.finite).between (lo := a.abs.neg) oneUnits_pos
    ((isFinite_neg _).trans hfin) hfin (by rw [units_neg, neg_mul]; exact hab.1) hab.2
  exact ⟨hr, abs_le.2 ⟨units_neg a.abs ▸ h1, h2⟩⟩

theorem isFinite_div_two {a : F32} (ha : a.isFinite = true) : (a.div two).isFinite = true := by
  have htwo : two.units = 2 * oneUnits := by decide +kernel
  refine (isNearest_div ha (by decide) (by decide)).isFinite ?_
  rw [htwo, Int.natAbs_mul, Int.natAbs_mul, natAbs_units, Int.natAbs_natCast, show Int.natAbs 2 = 2 from rfl]
  calc a.mag * oneUnits
    _ < (2 ^ 277 - 2 ^ 252) * oneUnits := Nat.mul_lt_mul_of_pos_right (mag_lt_overflow ha) (by decide +kernel)
    _ ≤ (2 ^ 277 - 2 ^ 252) * (2 * oneUnits) := Nat.mul_le_mul_left _ (by omega)

/-! ### Neutral operands and signs -/

theorem sign_mul {a b : F32} (ha : a.isFinite = true) (hb : b.isFinite = true) :
    (a.mul b).sign = (a.sign != b.sign) := by
  simp only [mul, isNaN_of_finite, isInf_of_finite, ha, hb, Bool.or_self, Bool.false_eq_true, if_false]
  exact sign_pack _ ((roundMag_le _ _).trans_lt (by decide))

theorem sign_div_of_isFinite {a b : F32} (ha : a.isFinite = true) (hb : b.isFinite = true)
    (hz : b.isZero = false) : (a.div b).sign = (a.sign != b.sign) := by
  simp only [div, isNaN_of_finite, isInf_of_finite, ha, hb, hz, Bool.or_self, Bool.false_eq_true, if_false]
  exact sign_pack _ ((roundMag_le _ _).trans_lt (by decide))

theorem mul_comm_of_isFinite {a b : F32} (ha : a.isFinite = true) (hb : b.isFinite = true) :
    a.mul b = b.mul a := by
  simp only [mul, isNaN_of_finite, isInf_of_finite, ha, hb, Bool.or_self, Bool.false_eq_true, if_false,
    Nat.mul_comm a.mag, bne_comm (a := a.sign)]

theorem mul_one_of_isFinite {a : F32} (ha : a.isFinite = true) : a.mul one = a := by
  have hone : one.isFinite = true := by decide
  obtain ⟨_, hu⟩ := (isNearest_mul ha hone).exact oneUnits_pos.ne' ha (by rw [units_one])
  refine ext_units_sign hu ?_
  rw [sign_mul ha hone, show one.sign = false from rfl, Bool.bne_false]

theorem div_one_of_isFinite {a : F32} (ha : a.isFinite = true) : a.div one = a := by
  have hone : one.isFinite = true := by decide
  have hz : one.isZero = false := by decide
  obtain ⟨_, hu⟩ := (isNearest_div ha hone hz).exact (units_one ▸ oneUnits_pos.ne') ha (by rw [units_one])
  refine ext_units_sign hu ?_
  rw [sign_div_of_isFinite ha hone hz, show one.sign = false from rfl, Bool.bne_false]

theorem div_self_of_isFinite {a : F32} (ha : a.isFinite = true) (hz : a.isZero = false) : a.div a = one := by
  have hne : a.units ≠ 0 := fun h => by rw [(units_eq_zero_iff a).1 h] at hz; cases hz
  obtain ⟨_, hu⟩ := (isNearest_div ha ha hz).exact (c := one) hne (by decide) (by rw [units_one, mul_comm])
  exact (eq_of_units_eq hu.symm (by decide)).symm

theorem neg_pack (neg : Bool) {m : Nat} (h : m < 2 ^ 31) : (pack neg m).neg = pack (!neg) m := by
  rw [neg_eq, sign_pack neg h, pat_pack neg h]

theorem mul_neg_of_isFinite {a b : F32} (ha : a.isFinite = true) (hb : b.isFinite = true) :
    a.mul b.neg = (a.mul b).neg := by
  simp only [mul, isNaN_of_finite, isInf_of_finite, isFinite_neg, ha, hb, Bool.or_self, Bool.false_eq_true,
    if_false, mag_neg, sign_neg]
  rw [neg_pack _ ((roundMag_le _ _).trans_lt (by decide))]
  cases a.sign <;> cases b.sign <;> rfl

theorem neg_div_of_isFinite {a b : F32} (ha : a.isFinite = true) (hb : b.isFinite = true)
    (hz : b.isZero = false) : a.neg.div b = (a.div b).neg := by
  simp only [div, isNaN_of_finite, isInf_of_finite, isFinite_neg, ha, hb, hz, Bool.or_self,
    Bool.false_eq_true, if_false, mag_neg, sign_neg]
  rw [neg_pack _ ((roundMag_le _ _).trans_lt (by decide))]
  cases a.sign <;> cases b.sign <;> rfl

theorem one_add_signedZero (neg : Bool) : one.add (pack neg 0) = one := by cases neg <;> decide +kernel

theorem isFinite_signedZero (neg : Bool) : (pack neg 0).isFinite = true := by cases neg <;> decide

theorem zero_div_of_pos {b : F32} (h : zero.lt b = true) : zero.div b = zero := by
  obtain ⟨_, hn, hpos⟩ := lt_iff.1 h
  have hz := isZero_of_units_pos hpos
  obtain ⟨neg, hdiv⟩ := zero_div_of_isZero_eq_false hn hz
  have hs : (zero.div b).sign = false := sign_div rfl (sign_eq_false_of_units_pos hpos)
  rw [hdiv, sign_pack neg (by decide)] at hs
  rw [hdiv, hs]; rfl

end Sys2Proof.F32

namespace Sys2Proof.Machine

open F32 (Within)

/-! ### Commands of the bank -/

/-- A word is its fields, whatever stands in `RSV` (30_encoding.md R101, R102). -/
theorem decodeCommand_fields (opc idx : BitVec 8) (rsv : BitVec 16) (p : Word32) :
    decodeCommand (opc ++ idx ++ rsv ++ p) = decodeFields opc idx p := by
  have hopc : opcField (opc ++ idx ++ rsv ++ p) = opc :=
    calc opcField (opc ++ idx ++ rsv ++ p)
      _ = (opc ++ idx ++ rsv).extractLsb' 24 8 := BitVec.extractLsb'_append_eq_of_le (by decide)
      _ = (opc ++ idx).extractLsb' 8 8 := BitVec.extractLsb'_append_eq_of_le (by decide)
      _ = opc.extractLsb' 0 8 := BitVec.extractLsb'_append_eq_of_le (by decide)
      _ = opc := BitVec.extractLsb'_eq_self
  have hidx : idxField (opc ++ idx ++ rsv ++ p) = idx :=
    calc idxField (opc ++ idx ++ rsv ++ p)
      _ = (opc ++ idx ++ rsv).extractLsb' 16 8 := BitVec.extractLsb'_append_eq_of_le (by decide)
      _ = (opc ++ idx).extractLsb' 0 8 := BitVec.extractLsb'_append_eq_of_le (by decide)
      _ = idx := BitVec.extractLsb'_append_eq_right
  have hpay : payloadField (opc ++ idx ++ rsv ++ p) = p := BitVec.extractLsb'_append_eq_right
  rw [decodeCommand, hopc, hidx, hpay]

theorem onSlot_of_legal {idx : BitVec 8} (h : idx.toNat < 4) (f : Slot → Slot) (s : State) :
    onSlot idx f s = { s with slots := s.slots.set idx.toNat (f s.slots[idx.toNat]) } := by
  simp only [onSlot, slotOf, dif_pos h]; rfl

theorem whenFinite_of_finite {v : F32} (h : v.isFinite = true) (g : State → State) (s : State) :
    whenFinite v g s = g s := if_pos h

theorem codeOf_shapeOf (c : BitVec 4) : codeOf (shapeOf c) = if c ≤ 9 then c else 0 := by
  revert c; decide

theorem execResync_eq (s : State) :
    execResync s = .next { s with slots := s.slots.map zeroSlotPhases } := by
  have hslots : #v[zeroSlotPhases s.slots[0], zeroSlotPhases s.slots[1], zeroSlotPhases s.slots[2],
      zeroSlotPhases s.slots[3]] = s.slots.map zeroSlotPhases := by
    refine Vector.ext fun i hi => ?_
    rw [Vector.getElem_map]
    interval_cases i <;> rfl
  rw [execResync, hslots]

/-! ### A slot and the mixer -/

theorem storedAs_drawNaN (v : F32) (n : Nat) : StoredAs v (drawNaN v n).val := by
  rcases drawNaN_cases v n with ⟨_, h⟩ | ⟨hn, h⟩ <;> rw [h]
  · exact .inl rfl
  · exact .inr ⟨hn, isNaN_nanDraw n⟩

theorem drawNaN_zero (n : Nat) : drawNaN F32.zero n = ⟨F32.zero, n⟩ := rfl

theorem noteFreq_of_rest (i : Fin 4) {s : State} (h : 128 ≤ s.curNote.toNat) : noteFreq i s = F32.zero :=
  if_pos h

theorem within_toF32 (u : Sign) : Within (-1) 1 u.toF32 := by
  rw [← F32.abs_le_one_iff]
  cases u <;> decide +kernel

/-- Unison scales 0 Hz by a finite factor, which leaves 0 Hz (40_oscillator.md R145). -/
theorem unison_zero (i : Fin 4) {s : State} (h : s.unisonSpread.isFinite = true) :
    (unison i F32.zero s).feq F32.zero = true := by
  unfold unison
  split
  case isTrue =>
    have hspread := F32.isFinite_div_two h
    have hscaled := F32.abs_units_mul_le hspread (within_toF32 s.cfg.unisonSign[i])
    rw [F32.mul_comm_of_isFinite hspread (within_toF32 _).finite] at hscaled
    have hfactor := F32.isFinite_one_add hscaled.1
    obtain ⟨neg, hprod⟩ := F32.mul_zero_of_isFinite hfactor
    rw [F32.mul_comm_of_isFinite F32.isFinite_zero hfactor, hprod]
    cases neg <;> decide
  case isFalse => decide

theorem slotTick_of_rest (i : Fin 4) (m : Option F32) {s : State} (hnote : 128 ≤ s.curNote.toNat)
    (hspread : s.unisonSpread.isFinite = true) : slotTick i m s = (F32.zero, s) := by
  rcases slotTick_cases i m s with ⟨_, h⟩ | ⟨⟨_, hf⟩, _⟩
  · exact h
  · rw [noteFreq_of_rest i hnote, unison_zero i hspread] at hf
    cases hf

/-- Four silent slots mix to 0.0, over whatever sum of levels (40_oscillator.md R162, R163). -/
theorem mixValue_of_silence (s : State) : mixValue (Vector.replicate 4 F32.zero) s = F32.zero := by
  have hsum : ((F32.zero.add F32.zero).add F32.zero).add F32.zero = F32.zero := by decide
  simp only [mixValue, Vector.getElem_replicate, hsum]
  split
  case isTrue =>
    split
    case isTrue hl => exact F32.zero_div_of_pos hl
    case isFalse => rfl
  case isFalse => decide +kernel

/-! ### Draws and voices of a wave -/

theorem noiseDraw_mem (n : Nat) :
    F32.negOne.le (noiseDraw n) = true ∧ (noiseDraw n).le F32.one = true := by
  unfold noiseDraw
  split
  case isTrue h => simpa using h
  case isFalse => decide +kernel

theorem within_noiseDraw (n : Nat) : Within (-1) 1 (noiseDraw n) := by
  have hneg : F32.negOne.units = -F32.oneUnits := by decide +kernel
  obtain ⟨hlow, hhigh⟩ := noiseDraw_mem n
  have hfin := F32.isFinite_of_le_of_le (by decide) (by decide) hlow hhigh
  obtain ⟨_, _, hlow⟩ := F32.le_iff.1 hlow
  obtain ⟨_, _, hhigh⟩ := F32.le_iff.1 hhigh
  rw [F32.units_one] at hhigh
  exact ⟨hfin, by omega, by omega⟩

theorem toList_phases (ph : Vector F32 7) :
    ph.toList = [ph[0], ph[1], ph[2], ph[3], ph[4], ph[5], ph[6]] := by
  refine List.ext_getElem (by simp) fun i hi _ => ?_
  rw [Vector.length_toList] at hi
  interval_cases i <;> simp

/-! ### The saturator -/

/-- `shape` of the saturator (40_oscillator.md R148). -/
def satShape (a : F32) : F32 := (F32.two.mul a).div (F32.one.sub a)

theorem sat_eq (a x : F32) :
    sat a x = ((F32.one.add (satShape a)).mul x).div (F32.one.add ((satShape a).mul x.abs)) := rfl

/-- An amount in [0, 0.9] gives a shape in [0, 32]: the divisor is at least 1/16. -/
theorem within_satShape {a : F32} (h0 : F32.zero.le a = true) (h1 : a.le F32.pointNine = true) :
    Within 0 32 (satShape a) := by
  have hone : F32.one.isFinite = true := by decide
  have hfin : a.isFinite = true := F32.isFinite_of_le_of_le F32.isFinite_zero (by decide) h0 h1
  obtain ⟨_, _, h0⟩ := F32.le_iff.1 h0
  obtain ⟨_, _, h1⟩ := F32.le_iff.1 h1
  rw [F32.units_zero] at h0
  have hnine : 16 * F32.pointNine.units ≤ 15 * F32.oneUnits := by decide +kernel
  have hsixteenth : 16 * (⟨0x3D800000⟩ : F32).units = F32.oneUnits := by decide +kernel
  have hpos := F32.oneUnits_pos
  have htwice : Within 0 2 (F32.two.mul a) :=
    F32.within_mul_of_units_eq (n := 2) (by decide) (by decide +kernel) hfin (by decide) (by decide)
      (by omega) (by omega)
  obtain ⟨hdiff, hlow, _⟩ := (F32.isNearest_sub hone hfin).between (lo := ⟨0x3D800000⟩) (hi := F32.one)
    one_pos (by decide) hone (by rw [F32.units_one]; omega) (by rw [F32.units_one]; omega)
  have hlow : (F32.oneUnits : Int) ≤ 16 * (F32.one.sub a).units := by omega
  have hdiffPos : 0 < (F32.one.sub a).units := by omega
  refine (F32.isNearest_div htwice.finite hdiff (F32.isZero_of_units_pos hdiffPos)).within hdiffPos
    (by decide) (by decide) ?_ ?_
  · have := htwice.low
    simpa using mul_nonneg (by simpa using this) hpos.le
  · have := htwice.high
    nlinarith

section
variable {a x : F32} (ha : Within 0 32 (satShape a)) (hx : Within (-1) 1 x)
include ha

theorem within_satGain : Within 1 33 (F32.one.add (satShape a)) :=
  F32.within_one.add ha (by decide) (by decide)

include hx

/-- The divisor of the saturator is at least 1, so that it is not 0. -/
theorem within_satDivisor : Within 1 33 (F32.one.add ((satShape a).mul x.abs)) :=
  F32.within_one.add (ha.mul_of_nonneg hx.abs (by decide)) (by decide) (by decide)

theorem isFinite_satProduct : ((F32.one.add (satShape a)).mul x).isFinite = true :=
  (((within_satGain ha).mono (l' := -33) (by decide) le_rfl).mul hx (by decide)).finite

/-- The saturator is odd on [-1, 1] (40_oscillator.md R148): the sign of `x` passes through the product and the
quotient, and the divisor reads `|x|` only. -/
theorem sat_neg : sat a x.neg = (sat a x).neg := by
  have hdiv := within_satDivisor ha hx
  have hz := F32.isZero_of_units_pos (F32.oneUnits_pos.trans_le (by simpa using hdiv.low))
  rw [sat_eq, sat_eq, F32.abs_neg, F32.mul_neg_of_isFinite (within_satGain ha).finite hx.finite,
    F32.neg_div_of_isFinite (isFinite_satProduct ha hx) hdiv.finite hz]

end

theorem sat_one {a : F32} (ha : Within 0 32 (satShape a)) : sat a F32.one = F32.one := by
  have hgain := within_satGain ha
  have hz := F32.isZero_of_units_pos (F32.oneUnits_pos.trans_le (by simpa using hgain.low))
  rw [sat_eq, show F32.one.abs = F32.one by decide, F32.mul_one_of_isFinite hgain.finite,
    F32.mul_one_of_isFinite ha.finite, F32.div_self_of_isFinite hgain.finite hz]

theorem sat_zero {a : F32} (ha : Within 0 32 (satShape a)) : (sat a F32.zero).feq F32.zero = true := by
  obtain ⟨neg, hnum⟩ := F32.mul_zero_of_isFinite (within_satGain ha).finite
  obtain ⟨neg', hden⟩ := F32.mul_zero_of_isFinite ha.finite
  rw [sat_eq, show F32.zero.abs = F32.zero by decide, hnum, hden, F32.one_add_signedZero,
    F32.div_one_of_isFinite (F32.isFinite_signedZero neg)]
  cases neg <;> decide

/-- Amount 0 is the identity on finite values (40_oscillator.md R148): shape 0, product and divisor neutral. -/
theorem sat_zero_amount {x : F32} (hx : x.isFinite = true) : sat F32.zero x = x := by
  have hshape : satShape F32.zero = F32.zero := by decide +kernel
  have hgain : F32.one.add F32.zero = F32.one := by decide +kernel
  have habs := (F32.isFinite_abs x).trans hx
  obtain ⟨neg, hden⟩ := F32.mul_zero_of_isFinite habs
  rw [sat_eq, hshape, hgain, F32.mul_comm_of_isFinite F32.isFinite_zero habs, hden, F32.one_add_signedZero,
    F32.mul_comm_of_isFinite (by decide) hx, F32.mul_one_of_isFinite hx, F32.div_one_of_isFinite hx]

/-! ### The waves are bounded -/

theorem within_two : Within 2 2 F32.two := F32.within_of_units_eq (by decide) (by decide +kernel)

theorem within_four : Within 4 4 F32.four := F32.within_of_units_eq (by decide) (by decide +kernel)

theorem within_two_mul {p : F32} (hp : inUnit p = true) : Within 0 2 (F32.two.mul p) := by
  obtain ⟨hfin, hlow, hhigh⟩ := F32.within_of_inUnit hp
  exact F32.within_mul_of_units_eq (n := 2) within_two.finite (by decide +kernel) hfin (by decide) (by decide)
    (by omega) (by omega)

theorem within_sawValue {p : F32} (hp : inUnit p = true) : Within (-1) 1 (sawValue p) :=
  F32.within_one.sub (within_two_mul hp) (by decide) (by decide)

theorem within_rampValue {p : F32} (hp : inUnit p = true) : Within (-1) 1 (rampValue p) :=
  (within_two_mul hp).sub F32.within_one (by decide) (by decide)

/-- Four times a phase between two quarters. -/
theorem within_four_mul {p : F32} (hp : inUnit p = true) {l h : Int} (hl : l.natAbs < 2 ^ 24)
    (hh : h.natAbs < 2 ^ 24) (hle : l * F32.oneUnits ≤ 4 * p.units) (hge : 4 * p.units ≤ h * F32.oneUnits) :
    Within l h (F32.four.mul p) :=
  F32.within_mul_of_units_eq within_four.finite (by decide +kernel) (F32.isFinite_of_inUnit hp) hl hh hle hge

/-- Each branch of the triangle starts and ends at a quarter, where it is 0, 1 or -1 (40_oscillator.md
R156). -/
theorem within_triangleValue {p : F32} (hp : inUnit p = true) : Within (-1) 1 (triangleValue p) := by
  obtain ⟨hn, h0, h1⟩ := F32.inUnit_iff.1 hp
  have hquarter : 4 * F32.quarter.units = F32.oneUnits := by decide +kernel
  have hthree : 4 * F32.threeQuarters.units = 3 * F32.oneUnits := by decide +kernel
  have hge {q : F32} (hq : q.isNaN = false) (h : ¬p.lt q = true) : q.units ≤ p.units :=
    (F32.le_iff.1 (F32.le_of_not_lt hn hq (by simpa using h))).2.2
  unfold triangleValue
  split
  case isTrue h =>
    obtain ⟨_, _, hlt⟩ := F32.lt_iff.1 h
    exact (within_four_mul hp (l := 0) (h := 1) (by decide) (by decide) (by omega) (by omega)).mono
      (by decide) le_rfl
  case isFalse h =>
    have hlow := hge (by decide) h
    split
    case isTrue h =>
      obtain ⟨_, _, hlt⟩ := F32.lt_iff.1 h
      exact within_two.sub
        (within_four_mul hp (l := 1) (h := 3) (by decide) (by decide) (by omega) (by omega))
        (by decide) (by decide)
    case isFalse h =>
      have hlow := hge (by decide) h
      exact ((within_four_mul hp (l := 3) (h := 4) (by decide) (by decide) (by omega) (by omega)).sub
        within_four (by decide) (by decide)).mono le_rfl (by decide)

/-- Each partial sum of k saws lies in [-k, k] (40_oscillator.md R159). -/
theorem within_superSawValue {ph : Vector F32 7} (hph : ∀ k : Fin 7, inUnit ph[k] = true) :
    Within (-1) 1 (superSawValue ph) := by
  have hsaw (k : Fin 7) : Within (-1) 1 (sawValue ph[k]) := within_sawValue (hph k)
  have h1 := F32.within_zero.add (hsaw 0) (by decide) (by decide)
  have h2 := h1.add (hsaw 1) (by decide) (by decide)
  have h3 := h2.add (hsaw 2) (by decide) (by decide)
  have h4 := h3.add (hsaw 3) (by decide) (by decide)
  have h5 := h4.add (hsaw 4) (by decide) (by decide)
  have h6 := h5.add (hsaw 5) (by decide) (by decide)
  have h7 : Within (-7) 7 _ := h6.add (hsaw 6) (by decide) (by decide)
  exact h7.div (F32.within_of_units_eq (by decide) (by decide +kernel)) (by decide)

theorem within_sin2pi {p : F32} (hp : inUnit p = true) : Within (-1) 1 (sin2pi p) :=
  (F32.abs_le_one_iff _).1 (abs_sin2pi_le_one hp)

/-- The gain of AM is at most 1: the divisor `1 + |p1|` is at least the dividend (40_oscillator.md R161). -/
theorem within_amGain {p1 w : F32} (hp : p1.isFinite = true) (hw : Within (-1) 1 w) :
    Within (-1) 1 ((F32.one.add (p1.mul w)).div (F32.one.add p1.abs)) := by
  obtain ⟨hfin, hle⟩ := F32.abs_units_mul_le hp hw
  have habs := (F32.isFinite_abs p1).trans hp
  exact F32.within_div_of_abs_le (F32.isFinite_one_add hfin) (F32.isFinite_one_add habs)
    (F32.units_one_add_pos habs (by rw [F32.units_abs]; omega)) (F32.abs_units_one_add_le hfin habs hle)

theorem within_wave (c : Config) (sh : Shape) {ph : Vector F32 7} (hph : ∀ k : Fin 7, inUnit ph[k] = true)
    (f : F32) (m : Option F32) (p0 : F32) {p1 : F32} (hp1 : p1.isFinite = true) (n : Nat) :
    Within (-1) 1 (wave c sh ph f m p0 p1 n).w := by
  have hp : inUnit ph[0] = true := hph 0
  have hlevel (b : Bool) : Within (-1) 1 (if b = true then F32.one else F32.negOne) := by
    rw [← F32.abs_le_one_iff]
    cases b <;> decide +kernel
  cases sh with
  | sine => exact within_sin2pi hp
  | square | pulse => exact hlevel _
  | saw => exact within_sawValue hp
  | ramp => exact within_rampValue hp
  | triangle => exact within_triangleValue hp
  | noise => exact within_noiseDraw n
  | superSaw => exact within_superSawValue hph
  | fm => exact within_sin2pi (F32.inUnit_wrap _)
  | am => exact (within_sin2pi hp).mul (within_amGain hp1 (within_sin2pi (hph 1))) (by decide)

/-! ### The statements -/

/-- Settles O41: for an amount in [0, 0.9] the shape lies in [0, 32] (`within_satShape`), so every operand of the
saturator is finite and the divisor is at least 1; -1 goes to -1 because the function is odd. -/
theorem saturatorEnds : Obligations.SaturatorEnds := by
  refine ⟨fun x hx => sat_zero_amount hx, fun a h0 h1 => ?_⟩
  have ha := within_satShape h0 h1
  have hodd {x : F32} (hx : x.abs.le F32.one = true) : sat a x.neg = (sat a x).neg :=
    sat_neg ha ((F32.abs_le_one_iff x).1 hx)
  have hneg : sat a F32.negOne = F32.negOne :=
    calc sat a F32.negOne
      _ = (sat a F32.one).neg := hodd (x := F32.one) (by decide)
      _ = F32.negOne := by rw [sat_one ha]; decide
  exact ⟨sat_one ha, hneg, sat_zero ha, fun x hx => hodd hx⟩

/-- Settles O42, shape by shape (`within_wave`): rounding does not leave an interval between two f32 values. -/
theorem wavesAreBounded : Obligations.WavesAreBounded := fun c sh _ f m p0 _ n hph hp1 =>
  (F32.abs_le_one_iff _).2 (within_wave c sh hph f m p0 hp1 n)

/-- Settles O46: the frequency of a rest is 0 Hz, also after unison, so that every slot short-circuits. -/
theorem restSilencesSlots : Obligations.RestSilencesSlots := by
  intro s m hnote hspread
  constructor
  · simp only [slotTicks, slotTick_of_rest _ _ hnote hspread]; rfl
  · rw [mixer, mixValue_of_silence, drawNaN_zero]; rfl

/-- Settles O22: the index is legal, so the one slot is written (`onSlot_of_legal`). -/
theorem oscShapeAndInterval : Obligations.OscShapeAndInterval := by
  intro s idx rsv p hi
  refine ⟨⟨decodeCommand_fields .., shapeOf (payC4 p), codeOf_shapeOf _, ?_⟩, decodeCommand_fields .., ?_⟩
  · exact congrArg Host.Outcome.next (onSlot_of_legal hi _ s)
  · exact congrArg Host.Outcome.next (onSlot_of_legal hi _ s)

/-- Settles O23: the payload is finite and the index legal, so the one slot is written. -/
theorem oscF32Registers : Obligations.OscF32Registers := by
  intro s idx rsv v hi hv
  have put (f : Slot → Slot) : Host.Outcome.next (whenFinite v (onSlot idx f) s) =
      (.next { s with slots := s.slots.set idx.toNat (f s.slots[idx.toNat]) } :
        Host.Outcome State Fault Refusal) := by
    rw [whenFinite_of_finite hv, onSlot_of_legal hi]
  exact ⟨decodeCommand_fields .., put _, decodeCommand_fields .., put _, decodeCommand_fields .., put _,
    decodeCommand_fields .., put _⟩

/-- Settles O24: each command writes its register; `RESYNC` zeroes slot by slot (`execResync_eq`). -/
theorem bankWideCommands : Obligations.BankWideCommands := fun s _ _ _ =>
  ⟨decodeCommand_fields .., rfl, decodeCommand_fields .., rfl, decodeCommand_fields .., rfl,
    decodeCommand_fields .., execResync_eq s⟩

/-- Settles O43: the model's equation of each shape, the modulation by its neutral value, the seven voices one by
one. -/
theorem waveRules : Obligations.WaveRules := by
  intro c ph f m p0 p1 n
  have hmod (v : F32) : m.getD v = modOr m v := by cases m <;> rfl
  simp only [hmod]
  refine ⟨rfl, rfl, rfl, rfl, rfl, rfl, rfl, ?_, rfl, rfl, ?_, rfl, ?_⟩
  · exact noiseDraw_mem n
  · rw [toList_phases]; rfl
  · intro k
    fin_cases k <;> rfl

/-- Settles O44: a rest first, then the exact sum outside and inside the table; unison by the enable and the
sign of the slot. -/
theorem slotFrequency : Obligations.SlotFrequency := by
  intro i s
  constructor
  · intro k
    split
    case isTrue h => exact noteFreq_of_rest i h
    case isFalse hn =>
      have h : noteFreq i s = if k < 0 ∨ 127 < k then F32.zero else s.cfg.romRead k.toNat := if_neg hn
      split
      case isTrue hk => rw [h, if_pos hk]
      case isFalse hk =>
        intro x hx
        rw [h, if_neg hk, Config.romRead, List.getD_eq_getElem?_getD, hx]
        rfl
  · intro f0
    cases hen : s.unisonEn with
    | false => simp [unison, hen]
    | true => cases hsign : s.cfg.unisonSign[i] <;> simp [unison, hen, hsign, Sign.toF32]

/-- Settles O45, by the two cases of a slot tick (`slotTick_cases`). -/
theorem slotTickRule : Obligations.SlotTickRule := by
  intro i m s sl f
  rcases slotTick_cases i m s with ⟨hz, h⟩ | ⟨⟨hl, hf⟩, o, y, ho, hy, h⟩
  · rw [if_pos hz]; exact h
  · have hne : ¬(sl.level.feq F32.zero = true ∨ f.feq F32.zero = true) :=
      not_or.2 ⟨Bool.eq_false_iff.1 hl, Bool.eq_false_iff.1 hf⟩
    rw [if_neg hne, h, ← ho]
    subst hy
    exact ⟨storedAs_drawNaN _ _, _, rfl⟩

/-- Settles O47, by the three cases of the mix; 0.0 is stored as it stands. -/
theorem mixerRule : Obligations.MixerRule := by
  intro y s sum levels
  have hstored : StoredAs (mixValue y s) (mixer y s).1 := storedAs_drawNaN (mixValue y s) s.draws
  refine ⟨mixer_frame y s, ?_⟩
  split
  case isTrue hconst =>
    have hmix : mixValue y s = sum.div F32.four := by simp [mixValue, hconst, sum]
    exact hmix ▸ hstored
  case isFalse hconst =>
    split
    case isTrue hl =>
      have hmix : mixValue y s = sum.div levels := by
        rw [mixValue, if_pos (by simpa using hconst), if_pos hl]
      exact hmix ▸ hstored
    case isFalse hl =>
      have hmix : mixValue y s = F32.zero := by
        rw [mixValue, if_pos (by simpa using hconst), if_neg hl]
      rw [mixer, hmix, drawNaN_zero]

end Sys2Proof.Machine


/-! # Envelope and gate (41_envelope_gate.md)

The proofs of the statements about 41_envelope_gate.md. An ADSR tick is note inspection (`inspectNote_eq`) and then
the step of the stage it leaves (`playTick_of_attack` to `playTick_of_release`); a Gate tick is the step of its
state. The three stages that count ticks (Sustain, On, Off) are one argument, `countdown`. That the amplitude unit
is isolated is a commutation: its tick does not see the units around it (`State.among`). -/

namespace Sys2Proof.Machine

/-! ### Note events -/

theorem noteSideband_eq (e : BitVec 2) (n : BitVec 8) (s : State) :
    noteSideband e n s = if e = 1 then noteOnOp n s else if e = 2 then noteOffOp n s else s := by
  have he : e = 0 ∨ e = 1 ∨ e = 2 ∨ e = 3 := by revert e; decide
  rcases he with rfl | rfl | rfl | rfl <;> rfl

/-- A sounding note number is stored as it is (41_envelope_gate.md R205). -/
theorem noteOnOp_of_lt {n : BitVec 8} (h : n.toNat < 128) (s : State) :
    noteOnOp n s = { s with curNote := n, noteState := .noteOn } := by
  have hn : noteOf n = n := if_pos h
  rw [noteOnOp, hn, if_pos h]

/-- Every other number is stored as the rest sentinel (41_envelope_gate.md R205). -/
theorem noteOnOp_of_ge {n : BitVec 8} (h : 128 ≤ n.toNat) (s : State) :
    noteOnOp n s = { s with curNote := 128, noteState := .rest } := by
  have hn : noteOf n = 128 := if_neg (Nat.not_lt.2 h)
  rw [noteOnOp, hn]
  rfl

/-- The note-off of the note that is held (41_envelope_gate.md R206). -/
theorem noteOffOp_of_held {n : BitVec 8} {s : State} (hn : n = s.curNote)
    (hheld : s.noteState = .noteOn ∨ s.noteState = .noteHold) :
    noteOffOp n s = { s with noteState := .noteOff } := if_pos ⟨hn, hheld⟩

/-! ### Note inspection -/

theorem inspectNote_eq (s : State) : inspectNote s =
    if s.noteState = .noteOn then
      { s with envStage := .attack, envExt := .playing, susCnt := 0, noteState := .noteHold }
    else if s.noteState = .noteOff ∧ s.envExt = .playing ∧ s.envStage ≠ .release then
      { s with envStage := .release }
    else s := by
  cases h : s.noteState <;> simp [inspectNote, h]

/-- A trigger starts the envelope, whatever it does (41_envelope_gate.md R211). -/
theorem inspectNote_of_noteOn {s : State} (h : s.noteState = .noteOn) : inspectNote s =
    { s with envStage := .attack, envExt := .playing, susCnt := 0, noteState := .noteHold } := by
  rw [inspectNote_eq, if_pos h]

/-- A note-off brings an envelope that plays into Release, or finds it there (41_envelope_gate.md R211). -/
theorem inspectNote_of_noteOff {s : State} (h : s.noteState = .noteOff) (hplay : s.envExt = .playing) :
    inspectNote s = { s with envStage := .release } := by
  by_cases hst : s.envStage = .release
  · rw [inspectNote_eq, if_neg (by simp [h]), if_neg (fun hrel => hrel.2.2 hst), ← hst]
  · simp [inspectNote_eq, h, hplay, hst]

/-- Without a note event the inspection finds nothing (41_envelope_gate.md R211). -/
theorem inspectNote_of_steady {s : State} (h : s.noteState = .rest ∨ s.noteState = .noteHold) :
    inspectNote s = s := by
  rcases h with h | h <;> simp [inspectNote_eq, h]

/-- A stopped envelope answers to a trigger only (41_envelope_gate.md R211). -/
theorem inspectNote_of_stopped {s : State} (hstop : s.envExt = .stopped) (h : s.noteState ≠ .noteOn) :
    inspectNote s = s := by
  simp [inspectNote_eq, h, hstop]

/-! ### The ADSR tick by stage -/

/-- Steps 3 to 5 of the ADSR tick, from the state that step 1 leaves (41_envelope_gate.md R213 to R219). -/
def playTick (t : State) : AmpOut × State := (envOut (envAdvance t), envAdvance t)

theorem adsrTick_of_playing {s : State} (h : (inspectNote s).envExt = .playing) :
    adsrTick s = playTick (inspectNote s) := by
  simp only [adsrTick, h]; rfl

theorem adsrTick_of_not_playing {s : State} (h : (inspectNote s).envExt = .stopped) :
    adsrTick s = (.stopped, inspectNote s) := by
  simp only [adsrTick, h]

theorem adsrTick_of_stopped {s : State} (hstop : s.envExt = .stopped) (h : s.noteState ≠ .noteOn) :
    adsrTick s = (.stopped, s) := by
  have hi := inspectNote_of_stopped hstop h
  rw [adsrTick_of_not_playing (hi.symm ▸ hstop), hi]

theorem adsrTick_of_steady {s : State} (h : s.noteState = .rest ∨ s.noteState = .noteHold)
    (hplay : s.envExt = .playing) : adsrTick s = playTick s := by
  have hi := inspectNote_of_steady h
  rw [adsrTick_of_playing (hi.symm ▸ hplay), hi]

theorem cfg_adsrTick (s : State) : (adsrTick s).2.cfg = s.cfg := by
  obtain ⟨_, _, _, _, _, h⟩ := adsrTick_frame s
  rw [h]

theorem segmentLaw_eq (d : F32) (n : Word32) (target moved : F32) :
    segmentLaw d n target moved = if n = 0 ∨ d.feq F32.zero = true then target else moved := by
  simp [segmentLaw, snaps]

section
variable {t : State} (hplay : t.envExt = .playing)
include hplay

theorem playTick_of_attack (h : t.envStage = .attack) : playTick t =
    if t.outputLevel.le (attackLevel t) then
      (.playing (db2lin (clampEnv t.cfg t.outputLevel t.outputLevel)),
        { t with envLevel := clampEnv t.cfg t.outputLevel t.outputLevel, envStage := .decay })
    else (.playing (db2lin (clampEnv t.cfg t.outputLevel (attackLevel t))),
      { t with envLevel := clampEnv t.cfg t.outputLevel (attackLevel t) }) := by
  simp only [playTick, envAdvance, stageStep, h, attackStep]
  split <;> simp only [envOut, hplay]

theorem playTick_of_decay (h : t.envStage = .decay) : playTick t =
    if (decayLevel t).le (susLevel t) then
      (.playing (db2lin (clampEnv t.cfg t.outputLevel (susLevel t))),
        { t with envLevel := clampEnv t.cfg t.outputLevel (susLevel t), envStage := .sustain, susCnt := 0 })
    else (.playing (db2lin (clampEnv t.cfg t.outputLevel (decayLevel t))),
      { t with envLevel := clampEnv t.cfg t.outputLevel (decayLevel t) }) := by
  simp only [playTick, envAdvance, stageStep, h, decayStep]
  split <;> simp only [envOut, hplay]

theorem playTick_of_sustain (h : t.envStage = .sustain) : playTick t =
    (.playing (db2lin (clampEnv t.cfg t.outputLevel t.envLevel)),
      { t with
          susCnt := satInc t.susCnt, envLevel := clampEnv t.cfg t.outputLevel t.envLevel,
          envStage := if samples t.cfg t.sustainMs ≤ satInc t.susCnt then .release else .sustain }) := by
  simp only [playTick, envAdvance, stageStep, h, sustainStep]
  split <;> simp only [envOut, hplay]

theorem playTick_of_release (h : t.envStage = .release) : playTick t =
    if (releaseLevel t).le t.cfg.minEnvLevel then
      (.stopped,
        { t with
            envLevel := clampEnv t.cfg t.outputLevel t.cfg.minEnvLevel, envStage := .attack,
            envExt := .stopped })
    else (.playing (db2lin (clampEnv t.cfg t.outputLevel (releaseLevel t))),
      { t with envLevel := clampEnv t.cfg t.outputLevel (releaseLevel t) }) := by
  simp only [playTick, envAdvance, stageStep, h, releaseStep]
  split <;> simp only [envOut, hplay]

end

/-! ### The order of the stages -/

/-- `t` may follow the stage `st`: the stage itself or the next, after Release `Stopped`, which stands at
Attack (41_envelope_gate.md R210, R217). -/
def EnvStage.LeadsTo (st : EnvStage) (t : State) : Prop :=
  match st with
  | .attack => t.envExt = .playing ∧ (t.envStage = .attack ∨ t.envStage = .decay)
  | .decay => t.envExt = .playing ∧ (t.envStage = .decay ∨ t.envStage = .sustain)
  | .sustain => t.envExt = .playing ∧ (t.envStage = .sustain ∨ t.envStage = .release)
  | .release => (t.envExt = .playing ∧ t.envStage = .release) ∨ (t.envExt = .stopped ∧ t.envStage = .attack)

theorem playTick_leadsTo {t : State} (hplay : t.envExt = .playing) : t.envStage.LeadsTo (playTick t).2 := by
  cases h : t.envStage with
  | attack =>
    rw [playTick_of_attack hplay h]
    split
    · exact ⟨hplay, .inr rfl⟩
    · exact ⟨hplay, .inl h⟩
  | decay =>
    rw [playTick_of_decay hplay h]
    split
    · exact ⟨hplay, .inr rfl⟩
    · exact ⟨hplay, .inl h⟩
  | sustain =>
    rw [playTick_of_sustain hplay h]
    refine ⟨hplay, ?_⟩
    dsimp only
    split
    · exact .inr rfl
    · exact .inl rfl
  | release =>
    rw [playTick_of_release hplay h]
    split
    · exact .inr ⟨rfl, rfl⟩
    · exact .inl ⟨hplay, h⟩

theorem adsrTick_of_noteOn_leadsTo {s : State} (h : s.noteState = .noteOn) :
    EnvStage.attack.LeadsTo (adsrTick s).2 := by
  have hi := inspectNote_of_noteOn h
  rw [adsrTick_of_playing (by rw [hi]), hi]
  exact playTick_leadsTo
    (t := { s with envStage := .attack, envExt := .playing, susCnt := 0, noteState := .noteHold }) rfl

theorem adsrTick_of_noteOff_leadsTo {s : State} (h : s.noteState = .noteOff) (hplay : s.envExt = .playing) :
    EnvStage.release.LeadsTo (adsrTick s).2 := by
  have hi := inspectNote_of_noteOff h hplay
  rw [adsrTick_of_playing (by rw [hi]; exact hplay), hi]
  exact playTick_leadsTo (t := { s with envStage := .release }) hplay

theorem adsrTick_of_steady_leadsTo {s : State} (h : s.noteState = .rest ∨ s.noteState = .noteHold)
    (hplay : s.envExt = .playing) : s.envStage.LeadsTo (adsrTick s).2 := by
  rw [adsrTick_of_steady h hplay]
  exact playTick_leadsTo hplay

/-! ### An envelope without duration -/

/-- The clamp leaves the peak (41_envelope_gate.md R218). -/
theorem clampEnv_peak {c : Config} {peak : F32} (h : c.minEnvLevel.le peak = true) :
    clampEnv c peak peak = peak := by
  obtain ⟨hc, hp, _⟩ := F32.le_iff.1 h
  have hself : peak.lt peak = false := by simp [F32.lt_eq_not_le hp hp, F32.le_refl hp]
  have hlow : peak.lt c.minEnvLevel = false := by simp [F32.lt_eq_not_le hp hc, h]
  simp [clampEnv, hself, hlow]

theorem samples_zero {c : Config} (hc : c.wf = true) : samples c 0 = 0 := samples_of_nonpos hc (by decide)

theorem segmentLaw_of_no_samples (d target moved : F32) : segmentLaw d 0 target moved = target := by
  simp [segmentLaw_eq]

/-- A legal state whose four durations are 0 (41_envelope_gate.md R220, case 1). -/
structure State.ZeroLength (s : State) : Prop where
  legal : s.Legal
  attack : s.attackMs = 0
  decay : s.decayMs = 0
  sustain : s.sustainMs = 0
  release : s.releaseMs = 0

/-- The envelope plays stage `st` while the note is held. -/
structure State.HeldIn (s : State) (st : EnvStage) : Prop where
  noteState : s.noteState = .noteHold
  envExt : s.envExt = .playing
  envStage : s.envStage = st

theorem State.ZeroLength.tick {s : State} (hs : s.ZeroLength) : (adsrTick s).2.ZeroLength := by
  have hlegal := (adsrTick_legal hs.legal).1
  obtain ⟨l, st, ex, c, ns, h⟩ := adsrTick_frame s
  rw [h] at hlegal ⊢
  exact ⟨hlegal, hs.attack, hs.decay, hs.sustain, hs.release⟩

section
variable {s : State} (hs : s.ZeroLength)
include hs

/-- Attack snaps to the peak in the tick of the trigger (41_envelope_gate.md R214, R220). -/
theorem State.ZeroLength.tick_of_noteOn (h : s.noteState = .noteOn) :
    (adsrTick s).1 = .playing (db2lin s.outputLevel) ∧ (adsrTick s).2.HeldIn .decay := by
  have hi := inspectNote_of_noteOn h
  have hpeak : attackLevel (inspectNote s) = s.outputLevel := by
    rw [hi, attackLevel]
    simp only [hs.attack, samples_zero hs.legal.cfg, segmentLaw_of_no_samples]
  have hle := F32.le_refl (F32.isNaN_of_finite hs.legal.outputFinite)
  rw [adsrTick_of_playing (by rw [hi]), playTick_of_attack (by rw [hi]) (by rw [hi]), hpeak, hi, if_pos hle]
  exact ⟨by rw [clampEnv_peak hs.legal.outputLow], rfl, rfl, rfl⟩

/-- Decay snaps to the sustain level (41_envelope_gate.md R215, R220). -/
theorem State.ZeroLength.tick_of_decay (h : s.HeldIn .decay) :
    (adsrTick s).2.HeldIn .sustain := by
  have hlevel : decayLevel s = susLevel s := by
    simp only [decayLevel, hs.decay, samples_zero hs.legal.cfg, segmentLaw_of_no_samples]
  rw [adsrTick_of_steady (.inr h.noteState) h.envExt, playTick_of_decay h.envExt h.envStage, hlevel,
    if_pos (F32.le_refl (isNaN_susLevel hs.legal))]
  exact ⟨h.noteState, h.envExt, rfl⟩

/-- Sustain ends with its first tick (41_envelope_gate.md R216, R220). -/
theorem State.ZeroLength.tick_of_sustain (h : s.HeldIn .sustain) :
    (adsrTick s).2.HeldIn .release := by
  have hlast : samples s.cfg s.sustainMs ≤ satInc s.susCnt := by
    rw [hs.sustain, samples_zero hs.legal.cfg]
    exact Nat.zero_le _
  rw [adsrTick_of_steady (.inr h.noteState) h.envExt, playTick_of_sustain h.envExt h.envStage, if_pos hlast]
  exact ⟨h.noteState, h.envExt, rfl⟩

/-- Release snaps to the floor and stops (41_envelope_gate.md R217, R220). -/
theorem State.ZeroLength.tick_of_release (h : s.HeldIn .release) :
    (adsrTick s).1 = .stopped ∧ (adsrTick s).2.envLevel = s.cfg.minEnvLevel := by
  have hlevel : releaseLevel s = s.cfg.minEnvLevel := by
    simp only [releaseLevel, hs.release, samples_zero hs.legal.cfg, segmentLaw_of_no_samples]
  have hle := F32.le_refl (F32.isNaN_of_finite (Config.isFinite_minEnvLevel hs.legal.cfg))
  rw [adsrTick_of_steady (.inr h.noteState) h.envExt, playTick_of_release h.envExt h.envStage, hlevel, if_pos hle]
  exact ⟨rfl, clampEnv_floor hs.legal.outputLow⟩

end

/-! ### Counting ticks -/

theorem adsrTicks_eq_iterate (n : Nat) (s : State) : adsrTicks n s = (fun t => (adsrTick t).2)^[n] s := by
  induction n generalizing s with
  | zero => rfl
  | succ n ih => exact ih (adsrTick s).2

theorem gateTicks_eq_iterate (n : Nat) (s : State) : gateTicks n s = (fun t => (gateTick t).2)^[n] s := by
  induction n generalizing s with
  | zero => rfl
  | succ n ih => exact ih (gateTick s).2

theorem gateTicks_add (m n : Nat) (s : State) : gateTicks (m + n) s = gateTicks n (gateTicks m s) := by
  rw [gateTicks_eq_iterate, gateTicks_eq_iterate, gateTicks_eq_iterate, Nat.add_comm, Function.iterate_add_apply]

/-- A counter below its end counts exactly, and reaches the end in the tick of that number: the end is a u32, so
that it is reached before the counter holds (41_envelope_gate.md R216, R226). -/
theorem satInc_ofNat {m : Word32} {n : Nat} (h : n < max m.toNat 1) :
    satInc (BitVec.ofNat 32 n) = BitVec.ofNat 32 (n + 1) ∧
      (m ≤ BitVec.ofNat 32 (n + 1) ↔ n + 1 = max m.toNat 1) := by
  have hm := m.isLt
  have hlast : BitVec.ofNat 32 n ≠ BitVec.allOnes 32 := fun e => by
    have := congrArg BitVec.toNat e
    rw [BitVec.toNat_ofNat, BitVec.toNat_allOnes] at this
    omega
  refine ⟨by rw [satInc, if_neg hlast, BitVec.ofNat_add]; rfl, ?_⟩
  rw [BitVec.le_def, BitVec.toNat_ofNat]
  omega

/-- Ticks that count up to `m` take max(m, 1): in the count `c` (`At c`) a tick ends the stage (`Done`) if the next
count has reached `m`, else it goes on to that count. -/
theorem countdown {tick : State → State} {m : Word32} {At : Word32 → State → Prop} {Done : State → Prop}
    (hdone : ∀ c t, At c t → m ≤ satInc c → Done (tick t))
    (hnext : ∀ c t, At c t → ¬m ≤ satInc c → At (satInc c) (tick t)) {s : State} (h0 : At 0 s) :
    (∀ n < max m.toNat 1, At (BitVec.ofNat 32 n) (tick^[n] s)) ∧ Done (tick^[max m.toNat 1] s) := by
  have hcount (n : Nat) (hn : n < max m.toNat 1) : At (BitVec.ofNat 32 n) (tick^[n] s) := by
    induction n with
    | zero => exact h0
    | succ n ih =>
      obtain ⟨hinc, hend⟩ := satInc_ofNat (Nat.lt_of_succ_lt hn)
      rw [Function.iterate_succ_apply', ← hinc]
      exact hnext _ _ (ih (Nat.lt_of_succ_lt hn)) (hinc ▸ fun hle => hn.ne (hend.1 hle))
  refine ⟨hcount, ?_⟩
  obtain ⟨k, hk⟩ : ∃ k, max m.toNat 1 = k + 1 := Nat.exists_eq_add_one.2 (by omega)
  obtain ⟨hinc, hend⟩ := satInc_ofNat (m := m) (n := k) (by omega)
  rw [hk, Function.iterate_succ_apply']
  exact hdone _ _ (hcount k (by omega)) (hinc ▸ hend.2 hk.symm)

/-! ### The Gate tick by state -/

theorem gateTick_of_on {s : State} (h : s.gateState = .on) : gateTick s =
    ((.playing (db2lin s.outputLevel), false),
      if gateOnMax s ≤ satInc s.gateOnCnt then
        { s with gateOnCnt := satInc s.gateOnCnt, gateState := .off, gateOffCnt := 0 }
      else { s with gateOnCnt := satInc s.gateOnCnt }) := by
  simp only [gateTick, h]

theorem gateTick_of_off {s : State} (h : s.gateState = .off) : gateTick s =
    ((.stopped, false),
      if gateOffMax s ≤ satInc s.gateOffCnt then
        { s with gateOffCnt := satInc s.gateOffCnt, gateState := .done }
      else { s with gateOffCnt := satInc s.gateOffCnt }) := by
  simp only [gateTick, h]

theorem gateTick_of_done {s : State} (h : s.gateState = .done) :
    gateTick s = ((.stopped, true), { s with gateState := .on, gateOnCnt := 0 }) := by
  simp only [gateTick, h]

/-- `NOTE_ADVANCE` is 1 in the End tick alone (41_envelope_gate.md R228). -/
theorem gateTick_noteAdvance (s : State) : (gateTick s).1.2 = true ↔ s.gateState = .done := by
  cases h : s.gateState with
  | on => simp [gateTick_of_on h]
  | off => simp [gateTick_of_off h]
  | done => simp [gateTick_of_done h]

theorem gateOnMax_le_gateTotal (s : State) : gateOnMax s ≤ gateTotal s := by
  unfold gateOnMax
  dsimp only
  split
  case isTrue h => exact h
  case isFalse => exact BitVec.le_refl _

theorem gateOnMax_add_gateOffMax (s : State) :
    (gateOnMax s).toNat + (gateOffMax s).toNat = (gateTotal s).toNat := by
  have hle := gateOnMax_le_gateTotal s
  rw [gateOffMax, BitVec.toNat_sub_of_le hle]
  exact Nat.add_sub_cancel' hle

/-- The On stage from its begin: max(GATE_ON_MAX, 1) ticks, then Off at its begin (41_envelope_gate.md R226). -/
theorem gateTicks_of_on {s : State} (hst : s.gateState = .on) (hcnt : s.gateOnCnt = 0) :
    let on := max (gateOnMax s).toNat 1
    (∀ n < on, (gateTicks n s).gateState = .on) ∧ (gateTicks on s).gateState = .off ∧
      (gateTicks on s).gateOffCnt = 0 ∧ gateOffMax (gateTicks on s) = gateOffMax s := by
  intro on
  have htick (c : Word32) : (gateTick { s with gateOnCnt := c }).2 =
      if gateOnMax s ≤ satInc c then { s with gateOnCnt := satInc c, gateState := .off, gateOffCnt := 0 }
      else { s with gateOnCnt := satInc c } :=
    congrArg Prod.snd (gateTick_of_on (s := { s with gateOnCnt := c }) hst)
  obtain ⟨hon, hoff⟩ := countdown (tick := fun t => (gateTick t).2) (m := gateOnMax s)
    (At := fun c t => t = { s with gateOnCnt := c })
    (Done := fun t => t.gateState = .off ∧ t.gateOffCnt = 0 ∧ gateOffMax t = gateOffMax s)
    (fun c t ht hle => by rw [ht, htick, if_pos hle]; exact ⟨rfl, rfl, rfl⟩)
    (fun c t ht hle => by rw [ht, htick, if_neg hle])
    (congrArg (fun c => { s with gateOnCnt := c }) hcnt)
  simp only [gateTicks_eq_iterate]
  exact ⟨fun n hn => by rw [hon n hn]; exact hst, hoff⟩

/-- The Off stage from its begin: max(GATE_OFF_MAX, 1) ticks, then End (41_envelope_gate.md R227). -/
theorem gateTicks_of_off {s : State} (hst : s.gateState = .off) (hcnt : s.gateOffCnt = 0) :
    (∀ n < max (gateOffMax s).toNat 1, (gateTicks n s).gateState = .off) ∧
      (gateTicks (max (gateOffMax s).toNat 1) s).gateState = .done := by
  have htick (c : Word32) : (gateTick { s with gateOffCnt := c }).2 =
      if gateOffMax s ≤ satInc c then { s with gateOffCnt := satInc c, gateState := .done }
      else { s with gateOffCnt := satInc c } :=
    congrArg Prod.snd (gateTick_of_off (s := { s with gateOffCnt := c }) hst)
  obtain ⟨hoff, hdone⟩ := countdown (tick := fun t => (gateTick t).2) (m := gateOffMax s)
    (At := fun c t => t = { s with gateOffCnt := c }) (Done := fun t => t.gateState = .done)
    (fun c t ht hle => by rw [ht, htick, if_pos hle])
    (fun c t ht hle => by rw [ht, htick, if_neg hle])
    (congrArg (fun c => { s with gateOffCnt := c }) hcnt)
  simp only [gateTicks_eq_iterate]
  exact ⟨fun n hn => by rw [hoff n hn]; exact hst, hdone⟩

/-! ### The amplitude unit among the others -/

theorem ampTick_of_envelope {s : State} (h : s.ampMode = .envelope) :
    ampTick s = (((adsrTick s).1, false), (adsrTick s).2) := by
  simp only [ampTick, h]

theorem ampTick_of_gate {s : State} (h : s.ampMode = .gate) : ampTick s = gateTick s := by
  simp only [ampTick, h]

/-- `NOTE_ADVANCE` of a frame (41_envelope_gate.md R208, R228). -/
theorem ampTick_noteAdvance (s : State) :
    (ampTick s).1.2 = true ↔ s.ampMode = .gate ∧ s.gateState = .done := by
  cases h : s.ampMode with
  | gate => simp [ampTick_of_gate h, gateTick_noteAdvance]
  | envelope => simp [ampTick_of_envelope h]

/-- The amplitude unit of `s` among the other units, the front end and the surroundings of `o`
(41_envelope_gate.md R208). -/
def State.among (s o : State) : State :=
  { o with
    cfg := s.cfg, ampMode := s.ampMode, outputLevel := s.outputLevel, attackMs := s.attackMs,
    decayMs := s.decayMs, releaseMs := s.releaseMs, sustainMs := s.sustainMs, sustainDb := s.sustainDb,
    gateDuty := s.gateDuty, gateLenMs := s.gateLenMs, curNote := s.curNote, noteState := s.noteState,
    envLevel := s.envLevel, envStage := s.envStage, envExt := s.envExt, susCnt := s.susCnt,
    gateState := s.gateState, gateOnCnt := s.gateOnCnt, gateOffCnt := s.gateOffCnt }

theorem among_of_ampPart_eq {s o : State} (h : s.ampPart = o.ampPart) : s.among o = o := by
  simp only [State.ampPart, AmpPart.mk.injEq] at h
  simp only [State.among, h]

theorem among_ite (c : Prop) [Decidable c] (s t o : State) :
    (if c then s else t).among o = if c then s.among o else t.among o := apply_ite (State.among · o) c s t

theorem inspectNote_among (s o : State) : inspectNote (s.among o) = (inspectNote s).among o := by
  rw [inspectNote_eq, inspectNote_eq, among_ite, among_ite]
  rfl

theorem stageStep_among (s o : State) : stageStep (s.among o) = (stageStep s).among o := by
  have hst : (s.among o).envStage = s.envStage := rfl
  simp only [stageStep, hst]
  cases s.envStage with
  | attack => dsimp only; rw [attackStep, attackStep, among_ite]; rfl
  | decay => dsimp only; rw [decayStep, decayStep, among_ite]; rfl
  | sustain => dsimp only; rw [sustainStep, sustainStep, among_ite]; rfl
  | release => dsimp only; rw [releaseStep, releaseStep, among_ite]; rfl

theorem playTick_among (t o : State) : playTick (t.among o) = ((playTick t).1, (playTick t).2.among o) := by
  rw [playTick, envAdvance, stageStep_among]
  rfl

theorem adsrTick_among (s o : State) : adsrTick (s.among o) = ((adsrTick s).1, (adsrTick s).2.among o) := by
  have hi := inspectNote_among s o
  cases h : (inspectNote s).envExt with
  | stopped => rw [adsrTick_of_not_playing h, adsrTick_of_not_playing (by rw [hi]; exact h), hi]
  | playing =>
    rw [adsrTick_of_playing h, adsrTick_of_playing (by rw [hi]; exact h), hi, playTick_among]

theorem gateTick_among (s o : State) : gateTick (s.among o) = ((gateTick s).1, (gateTick s).2.among o) := by
  cases h : s.gateState with
  | on =>
    rw [gateTick_of_on h, gateTick_of_on (s := s.among o) h, among_ite]
    rfl
  | off =>
    rw [gateTick_of_off h, gateTick_of_off (s := s.among o) h, among_ite]
    rfl
  | done =>
    rw [gateTick_of_done h, gateTick_of_done (s := s.among o) h]
    rfl

/-- The amplitude tick does not see the units around it (41_envelope_gate.md R208). -/
theorem ampTick_among (s o : State) : ampTick (s.among o) = ((ampTick s).1, (ampTick s).2.among o) := by
  cases h : s.ampMode with
  | gate => rw [ampTick_of_gate h, ampTick_of_gate (s := s.among o) h, gateTick_among]
  | envelope => rw [ampTick_of_envelope h, ampTick_of_envelope (s := s.among o) h, adsrTick_among]

theorem ampTick_of_ampPart_eq {s o : State} (h : s.ampPart = o.ampPart) :
    (ampTick o).1 = (ampTick s).1 ∧ (ampTick o).2.ampPart = (ampTick s).2.ampPart := by
  have hamong := ampTick_among s o
  rw [among_of_ampPart_eq h] at hamong
  rw [hamong]
  exact ⟨rfl, rfl⟩

theorem noteSideband_among (e : BitVec 2) (n : BitVec 8) (s o : State) :
    noteSideband e n (s.among o) = (noteSideband e n s).among o := by
  have hoff : noteOffOp n (s.among o) = (noteOffOp n s).among o := by
    rw [noteOffOp, noteOffOp, among_ite]
    rfl
  rw [noteSideband_eq, noteSideband_eq, among_ite, among_ite, hoff]
  rfl

/-- The part of the amplitude unit after the note event, from its part before (41_envelope_gate.md R207). -/
theorem ampPart_noteSideband {s o : State} (h : s.ampPart = o.ampPart) (e : BitVec 2) (n : BitVec 8) :
    (noteSideband e n s).ampPart = (noteSideband e n o).ampPart := by
  have hamong := noteSideband_among e n s o
  rw [among_of_ampPart_eq h] at hamong
  rw [hamong]
  rfl

theorem ampMode_beforeAmp (e : BitVec 2) (n : BitVec 8) (s : State) :
    (beforeAmp e n s).ampMode = s.ampMode := by
  have hpart := congrArg AmpPart.ampMode (ampPart_beforeAmp e n s)
  obtain ⟨_, _, hnote⟩ := noteSideband_frame e n s
  rw [hnote] at hpart
  exact hpart

theorem ampPart_emit (s : State) (r : OutRecord) : (s.emit r).ampPart = s.ampPart := rfl

theorem out_emit (s : State) (r : OutRecord) : (s.emit r).out = s.out ++ [r] := rfl

/-- A frame ends with the amplitude tick and answers its two values in the record (44_render_system.md R310,
R311). -/
theorem renderFrame_emit (e : BitVec 2) (n : BitVec 8) (s : State) :
    ∃ r, renderFrame e n s = (ampTick (beforeAmp e n s)).2.emit r ∧
      r.amp = (ampTick (beforeAmp e n s)).1.1 ∧ r.noteAdvance = (ampTick (beforeAmp e n s)).1.2 := by
  unfold renderFrame beforeAmp
  exact ⟨_, rfl, rfl, rfl⟩

/-- What a frame leaves in the amplitude unit and answers for it: the tick after the units before it
(44_render_system.md R310, R311). -/
theorem renderFrame_ampTick (e : BitVec 2) (n : BitVec 8) (s : State) :
    (renderFrame e n s).ampPart = (ampTick (beforeAmp e n s)).2.ampPart ∧
      ∃ r, (renderFrame e n s).out = s.out ++ [r] ∧
        r.amp = (ampTick (beforeAmp e n s)).1.1 ∧ r.noteAdvance = (ampTick (beforeAmp e n s)).1.2 := by
  obtain ⟨r, hr, hamp, hadv⟩ := renderFrame_emit e n s
  obtain ⟨_, _, _, _, _, _, _, _, _, _, _, _, _, _, q, hq⟩ := renderFrame_frame e n s
  have hout : (ampTick (beforeAmp e n s)).2.out ++ [r] = s.out ++ [q] :=
    calc (ampTick (beforeAmp e n s)).2.out ++ [r]
      _ = (renderFrame e n s).out := by rw [hr, out_emit]
      _ = s.out ++ [q] := by rw [hq]
  obtain ⟨hbefore, _⟩ := List.append_inj' hout rfl
  exact ⟨by rw [hr, ampPart_emit], r, by rw [hr, out_emit, hbefore], hamp, hadv⟩

/-! ### The order of the units -/

/-- The consultations of the modulating LFOs, each on the state the one before leaves (44_render_system.md R310,
step 2). -/
theorem consultMods_eq (s : State) : ∃ m0 m1 m2 m3, m0 = consult 4 s ∧ m1 = consult 5 m0.2 ∧
    m2 = consult 6 m1.2 ∧ m3 = consult 7 m2.2 ∧
    consultMods s = (#v[m0.1, m1.1, m2.1, m3.1], m3.2) :=
  ⟨_, _, _, _, rfl, rfl, rfl, rfl, rfl⟩

/-- The slots, each on the state the one before leaves (44_render_system.md R310, step 3). -/
theorem slotTicks_eq (a b c d : Option F32) (s : State) : ∃ y0 y1 y2 y3, y0 = slotTick 0 a s ∧
    y1 = slotTick 1 b y0.2 ∧ y2 = slotTick 2 c y1.2 ∧ y3 = slotTick 3 d y2.2 ∧
    slotTicks #v[a, b, c, d] s = (#v[y0.1, y1.1, y2.1, y3.1], y3.2) :=
  ⟨_, _, _, _, rfl, rfl, rfl, rfl, rfl⟩

/-! ### The statements -/

/-- Settles O32: the units before it leave the amplitude unit's part, and its tick depends on that part alone
(`ampTick_of_ampPart_eq`). -/
theorem ampUnitIsIsolated : Obligations.AmpUnitIsIsolated := by
  intro s u t v e n hs hu hpart ht hv
  rw [exec_tick_of_inBuffer hs] at ht
  rw [exec_tick_of_inBuffer hu] at hv
  cases ht
  cases hv
  have hbefore : (beforeAmp e n s).ampPart = (beforeAmp e n u).ampPart := by
    rw [ampPart_beforeAmp, ampPart_beforeAmp, ampPart_noteSideband hpart]
  obtain ⟨hans, hnext⟩ := ampTick_of_ampPart_eq hbefore
  obtain ⟨hts, r, hr, hramp, hradv⟩ := renderFrame_ampTick e n s
  obtain ⟨htu, q, hq, hqamp, hqadv⟩ := renderFrame_ampTick e n u
  rw [hans] at hqamp hqadv
  exact ⟨hts.trans (hnext.symm.trans htu.symm), r, q, hr, hq, hramp.trans hqamp.symm, hradv.trans hqadv.symm⟩

/-- Settles O54: the stage that note inspection leaves leads to itself or to the next (`playTick_leadsTo`). -/
theorem stageOrder : Obligations.StageOrder := by
  intro s t released
  cases hn : s.noteState with
  | noteOn => exact adsrTick_of_noteOn_leadsTo hn
  | noteOff => exact fun hplay => adsrTick_of_noteOff_leadsTo hn hplay
  | rest => exact fun hplay => adsrTick_of_steady_leadsTo (.inl hn) hplay
  | noteHold => exact fun hplay => adsrTick_of_steady_leadsTo (.inr hn) hplay

/-- Settles O56, tick by tick: every segment snaps, and Sustain ends with its first tick. -/
theorem zeroLengthEnvelope : Obligations.ZeroLengthEnvelope := by
  intro s hlegal hnote hattack hdecay hsustain hrelease
  have hs : s.ZeroLength := ⟨hlegal, hattack, hdecay, hsustain, hrelease⟩
  have hs1 := hs.tick
  have hs2 := hs1.tick
  have hs3 := hs2.tick
  obtain ⟨hpeak, h1⟩ := hs.tick_of_noteOn hnote
  have h2 := hs1.tick_of_decay h1
  have h3 := hs2.tick_of_sustain h2
  obtain ⟨hstop, hfloor⟩ := hs3.tick_of_release h3
  rw [cfg_adsrTick, cfg_adsrTick, cfg_adsrTick] at hfloor
  exact ⟨hpeak, h1.envStage, h2.envStage, h3.envStage, hstop, hfloor⟩

/-- Settles O57: `countdown` of the sustain counter; the clamp may move the level, which nothing else reads. -/
theorem sustainLength : Obligations.SustainLength := by
  intro s n hplay hst hcnt hnote
  have htick (c : Word32) (l : F32) : (adsrTick { s with susCnt := c, envLevel := l }).2 =
      { s with
        susCnt := satInc c, envLevel := clampEnv s.cfg s.outputLevel l,
        envStage := if samples s.cfg s.sustainMs ≤ satInc c then .release else .sustain } := by
    rw [adsrTick_of_steady (s := { s with susCnt := c, envLevel := l }) hnote hplay,
      playTick_of_sustain (t := { s with susCnt := c, envLevel := l }) hplay hst]
  obtain ⟨hin, hend⟩ := countdown (tick := fun t => (adsrTick t).2) (m := samples s.cfg s.sustainMs)
    (At := fun c t => ∃ l, t = { s with susCnt := c, envLevel := l }) (Done := fun t => t.envStage = .release)
    (by
      rintro c _ ⟨l, rfl⟩ hle
      rw [htick, if_pos hle])
    (by
      rintro c _ ⟨l, rfl⟩ hle
      rw [htick, if_neg hle, ← hst]
      exact ⟨_, rfl⟩)
    ⟨s.envLevel, congrArg (fun c => { s with susCnt := c }) hcnt⟩
  simp only [adsrTicks_eq_iterate]
  refine ⟨fun hn => ?_, hend⟩
  obtain ⟨l, h⟩ := hin n hn
  rw [h]
  exact ⟨hst, hplay⟩

/-- Settles O59: the On stage, the Off stage and the End tick in a row. -/
theorem gateCycle : Obligations.GateCycle := by
  intro s hst hcnt on off
  obtain ⟨hon, hstOff, hcntOff, hmax⟩ := gateTicks_of_on hst hcnt
  obtain ⟨hoff, hdone⟩ := gateTicks_of_off hstOff hcntOff
  rw [hmax] at hoff hdone
  have hoff' (n : Nat) (h1 : on ≤ n) (h2 : n < on + off) : (gateTicks n s).gateState = .off := by
    obtain ⟨k, rfl⟩ := Nat.exists_eq_add_of_le h1
    rw [gateTicks_add]
    exact hoff k (Nat.lt_of_add_lt_add_left h2)
  have hdone' : (gateTicks (on + off) s).gateState = .done := by
    rw [gateTicks_add]
    exact hdone
  have hagain : gateTicks (on + off + 1) s =
      { gateTicks (on + off) s with gateState := .on, gateOnCnt := 0 } := by
    rw [gateTicks_add, gateTicks, gateTick_of_done hdone', gateTicks]
  refine ⟨hon, hoff', hdone', by rw [hagain], by rw [hagain], fun n hn => ?_⟩
  rw [gateTick_noteAdvance]
  refine ⟨fun h => ?_, fun h => h ▸ hdone'⟩
  by_contra hne
  rcases Nat.lt_or_ge n on with hlt | hge
  · simp [hon n hlt] at h
  · simp [hoff' n hge (Nat.lt_of_le_of_ne hn hne)] at h

/-- Settles O60: a stopped envelope answers to a pending note-on only, and the note-off takes it. -/
theorem lostTrigger : Obligations.LostTrigger := by
  intro s t u n hn hstop ht hu
  cases ht
  cases hu
  rw [noteOnOp_of_lt hn,
    noteOffOp_of_held (s := { s with curNote := n, noteState := .noteOn }) rfl (.inl rfl)]
  exact ⟨rfl, adsrTick_of_stopped hstop (by simp), (adsrTick_of_noteOn_leadsTo rfl).1⟩

/-- Settles O25: the payload is finite, so that the one register is written. -/
theorem ampRegisters : Obligations.AmpRegisters := by
  intro s idx rsv p
  refine ⟨decodeCommand_fields .., rfl, fun v hv => ?_⟩
  have put (g : State → State) : Host.Outcome.next (whenFinite v g s) =
      (.next (g s) : Host.Outcome State Fault Refusal) := by rw [whenFinite_of_finite hv]
  exact ⟨decodeCommand_fields .., put _, decodeCommand_fields .., put _, decodeCommand_fields .., put _⟩

/-- Settles O26: each command writes its register, floored. -/
theorem durationRegisters : Obligations.DurationRegisters := fun _ _ _ _ =>
  ⟨decodeCommand_fields .., rfl, decodeCommand_fields .., rfl, decodeCommand_fields .., rfl,
    decodeCommand_fields .., rfl, decodeCommand_fields .., rfl⟩

/-- Settles O27: a number below 128 is kept, any other is stored as 128, the rest sentinel. -/
theorem noteCommands : Obligations.NoteCommands := by
  intro s idx rsv p n
  refine ⟨decodeCommand_fields .., ?_, decodeCommand_fields .., rfl⟩
  by_cases hn : n.toNat < 128
  · rw [if_pos hn, if_pos hn]
    exact congrArg Host.Outcome.next (noteOnOp_of_lt hn s)
  · rw [if_neg hn, if_neg hn]
    exact congrArg Host.Outcome.next (noteOnOp_of_ge (Nat.not_lt.1 hn) s)

/-- Settles O30: the consultations and the slots in the order of R310 (`consultMods_eq`, `slotTicks_eq`), and the
mode that stands until the amplitude unit runs. -/
theorem tickPipeline : Obligations.TickPipeline := by
  intro s e n hbuf
  have hmode := ampMode_beforeAmp e n s
  obtain ⟨m0, m1, m2, m3, hm0, hm1, hm2, hm3, hmods⟩ := consultMods_eq (noteSideband e n s)
  obtain ⟨y0, y1, y2, y3, hy0, hy1, hy2, hy3, hslots⟩ := slotTicks_eq m0.1 m1.1 m2.1 m3.1 m3.2
  obtain ⟨mix, hmix⟩ : ∃ x, x = mixer #v[y0.1, y1.1, y2.1, y3.1] y3.2 := ⟨_, rfl⟩
  obtain ⟨v2, hv2⟩ : ∃ x, x = consult 2 mix.2 := ⟨_, rfl⟩
  obtain ⟨flt, hflt⟩ : ∃ x, x = filterTick mix.1 v2.1 v2.2 := ⟨_, rfl⟩
  obtain ⟨pan, hpan⟩ : ∃ x, x = consult 0 flt.2 := ⟨_, rfl⟩
  obtain ⟨trem, htrem⟩ : ∃ x, x = consult 1 pan.2 := ⟨_, rfl⟩
  obtain ⟨phs, hphs⟩ : ∃ x, x = consult 3 trem.2 := ⟨_, rfl⟩
  simp only [beforeAmp, hmods, hslots, ← hmix, ← hv2, ← hflt, ← hpan, ← htrem, ← hphs] at hmode
  refine ⟨noteSideband e n s, m0, m1, m2, m3, v2, pan, trem, phs, y0, y1, y2, y3, mix, flt, ampTick phs.2,
    noteSideband_eq e n s, hm0, hm1, hm2, hm3, hy0, hy1, hy2, hy3, hmix, hv2, hflt, hpan, htrem, hphs, ?_, ?_⟩
  · cases hm : s.ampMode with
    | envelope => exact ampTick_of_envelope (hmode.trans hm)
    | gate => exact ampTick_of_gate (hmode.trans hm)
  · rw [exec_tick_of_inBuffer hbuf]
    simp only [renderFrame, hmods, hslots, ← hmix, ← hv2, ← hflt, ← hpan, ← htrem, ← hphs]
    rfl

/-- Settles O52, by the cases of `NOTE_STATE` (`inspectNote_eq`); without a trigger the tick of a stopped envelope
ends there (`adsrTick_of_stopped`). -/
theorem noteInspection : Obligations.NoteInspection := fun s =>
  ⟨inspectNote_eq s, adsrTick_of_stopped⟩

/-- Settles O53, stage by stage: the state that step 1 leaves is `inspectNote s`. -/
theorem envelopeStages : Obligations.EnvelopeStages := by
  intro s t hplay peak floor sus snap clamp
  have ht : inspectNote s = t := inspectNote_eq s
  have htick : adsrTick s = playTick t := by
    rw [adsrTick_of_playing (ht.symm ▸ hplay), ht]
  rw [htick]
  refine ⟨fun h => ?_, fun h => ?_, fun h => playTick_of_sustain hplay h, fun h => ?_⟩
  · rw [playTick_of_attack hplay h, attackLevel, segmentLaw_eq]; rfl
  · rw [playTick_of_decay hplay h, decayLevel, segmentLaw_eq]; rfl
  · rw [playTick_of_release hplay h, releaseLevel, segmentLaw_eq]; rfl

/-- Settles O58: the equation of the tick is the model's, the maxima are a part and the rest of the total, and
`AMP_MODE` picks the machine. -/
theorem gateTickRule : Obligations.GateTickRule := by
  intro s satInc total half onMax
  exact ⟨rfl, gateOnMax_add_gateOffMax s, ampTick_of_gate, ampTick_of_envelope, ampTick_noteAdvance s⟩

end Sys2Proof.Machine


/-! # Filter (42_filter.md)

The proofs of the statements about 42_filter.md. The cascade is one move of the state per active stage (`afterStage`,
`cascade_cons`). Every stage is visited once, so what a stage leaves is what the later stages read and what the tick
ends with (`cascaded_cascade`); and no move reads a stage that is not active (`AgreeOn.cascade`). -/

namespace Sys2Proof.Machine

/-! ### Commands of the filter -/

theorem polesOf_of_count {p : Word32} {k : Poles} (h : p.toNat = k.count) : polesOf p = some k := by
  unfold polesOf
  rw [h]
  cases k <;> rfl

/-- Settles O28: a finite payload is written, a pole count is the one of its payload, and with any other payload
`FLT_POLES` is a `NOP`. -/
theorem filterRegisters : Obligations.FilterRegisters := by
  intro s idx rsv
  refine ⟨fun v hv => ?_, fun p => ⟨decodeCommand_fields .., fun k hk => ?_, fun h1 h2 h3 => ?_⟩⟩
  · exact ⟨decodeCommand_fields .., congrArg Host.Outcome.next (whenFinite_of_finite hv _ s),
      decodeCommand_fields .., congrArg Host.Outcome.next (whenFinite_of_finite hv _ s)⟩
  · change execFltPoles p s = _
    rw [execFltPoles, polesOf_of_count hk]
  · have hillegal : legalPoles p = false := by
      simp only [legalPoles, Bool.or_eq_false_iff, beq_eq_false_iff_ne]
      exact ⟨⟨h1, h2⟩, h3⟩
    change execFltPoles p s = _
    rw [execFltPoles, polesOf_of_illegal hillegal]
    rfl

/-! ### Active stages -/

theorem mem_stagesOf {p : Poles} {k : Fin 3} : k ∈ stagesOf p ↔ k.val < p.count := by
  revert k
  cases p <;> decide

theorem nodup_stagesOf (p : Poles) : (stagesOf p).Nodup := by cases p <;> decide

/-! ### One stage -/

/-- The state after the turn of stage `k` with input `x`. -/
def afterStage (nf fb x : F32) (k : Fin 3) (s : State) : State :=
  let r := stage nf fb x s.buf0[k] s.buf1[k] s.draws
  (s.setStage k r.b0 r.b1).setDraws r.draws

/-- The turn of stage `k` writes the integrators of that stage only. -/
theorem afterStage_get (nf fb x : F32) (k j : Fin 3) (s : State) :
    (afterStage nf fb x k s).buf0[j] =
        (if k = j then (stage nf fb x s.buf0[k] s.buf1[k] s.draws).b0 else s.buf0[j]) ∧
      (afterStage nf fb x k s).buf1[j] =
        (if k = j then (stage nf fb x s.buf0[k] s.buf1[k] s.draws).b1 else s.buf1[j]) :=
  setStage_get s k j _ _

theorem afterStage_of_ne {k j : Fin 3} (h : k ≠ j) (nf fb x : F32) (s : State) :
    (afterStage nf fb x k s).buf0[j] = s.buf0[j] ∧ (afterStage nf fb x k s).buf1[j] = s.buf1[j] := by
  simpa only [if_neg h] using afterStage_get nf fb x k j s

/-- The cascade, stage by stage: what a stage leaves in `BUF1` is the input of the next (42_filter.md R252). -/
theorem cascade_cons (nf fb x : F32) (k : Fin 3) (ks : List (Fin 3)) (s : State) :
    cascade nf fb (k :: ks) x s =
      cascade nf fb ks (afterStage nf fb x k s).buf1[k] (afterStage nf fb x k s) := by
  rw [(afterStage_get nf fb x k k s).2, if_pos rfl]
  rfl

/-- The recurrence of one stage (42_filter.md R252): from the integrators of `s`, with input `x`, those of `t`. -/
structure StageRule (nf fb x : F32) (s t : State) (k : Fin 3) : Prop where
  buf0 : StoredAs
    (s.buf0[k].add (nf.mul ((x.sub s.buf0[k]).add (fb.mul (s.buf0[k].sub s.buf1[k]))))) t.buf0[k]
  buf1 : StoredAs (s.buf1[k].add (nf.mul (t.buf0[k].sub s.buf1[k]))) t.buf1[k]

theorem stageRule_afterStage (nf fb x : F32) (k : Fin 3) (s : State) :
    StageRule nf fb x s (afterStage nf fb x k s) k := by
  obtain ⟨h0, h1⟩ := afterStage_get nf fb x k k s
  rw [if_pos rfl] at h0 h1
  constructor
  · rw [h0]; exact storedAs_drawNaN _ _
  · rw [h0, h1]; exact storedAs_drawNaN _ _

section
variable {nf fb x : F32} {s s' t t' : State} {k : Fin 3}

/-- The rule of a stage is about the integrators of that stage only. -/
theorem StageRule.congr_before (h : StageRule nf fb x s' t k)
    (hs : s'.buf0[k] = s.buf0[k] ∧ s'.buf1[k] = s.buf1[k]) : StageRule nf fb x s t k := by
  obtain ⟨h0, h1⟩ := h
  rw [hs.1, hs.2] at h0
  rw [hs.2] at h1
  exact ⟨h0, h1⟩

theorem StageRule.congr_after (h : StageRule nf fb x s t' k)
    (ht : t.buf0[k] = t'.buf0[k] ∧ t.buf1[k] = t'.buf1[k]) : StageRule nf fb x s t k := by
  obtain ⟨h0, h1⟩ := h
  rw [← ht.1] at h0 h1
  rw [← ht.2] at h1
  exact ⟨h0, h1⟩

end

/-! ### The cascade -/

/-- Every stage of the list follows its rule from `s` to `t`, its input the stage before (the first one's is `x`);
the output is the last stage's (42_filter.md R252, R253). -/
def Cascaded (nf fb : F32) (s t : State) : List (Fin 3) → F32 → F32 → Prop
  | [], x, y => y = x
  | k :: ks, x, y => StageRule nf fb x s t k ∧ Cascaded nf fb s t ks t.buf1[k] y

theorem Cascaded.congr_before {nf fb : F32} {s s' t : State} {ks : List (Fin 3)} {x y : F32}
    (h : Cascaded nf fb s' t ks x y)
    (hs : ∀ k ∈ ks, s'.buf0[k] = s.buf0[k] ∧ s'.buf1[k] = s.buf1[k]) : Cascaded nf fb s t ks x y := by
  induction ks generalizing x with
  | nil => exact h
  | cons k ks ih =>
    obtain ⟨hk, hks⟩ := h
    exact ⟨hk.congr_before (hs k List.mem_cons_self), ih hks fun j hj => hs j (List.mem_cons_of_mem k hj)⟩

/-- A stage that is visited once keeps what its turn left, and its turn found what it held before. -/
theorem cascaded_cascade {nf fb : F32} {ks : List (Fin 3)} (hks : ks.Nodup) (x : F32) (s : State) :
    Cascaded nf fb s (cascade nf fb ks x s).2 ks x (cascade nf fb ks x s).1 := by
  induction ks generalizing x s with
  | nil => rfl
  | cons k ks ih =>
    obtain ⟨hk, hnodup⟩ := List.nodup_cons.1 hks
    rw [cascade_cons]
    have hstays := cascade_other nf fb ks k hk (afterStage nf fb x k s).buf1[k] (afterStage nf fb x k s)
    have hlater := (ih hnodup (afterStage nf fb x k s).buf1[k] (afterStage nf fb x k s)).congr_before (s := s)
      fun j hj => afterStage_of_ne (ne_of_mem_of_not_mem hj hk).symm nf fb x s
    refine ⟨(stageRule_afterStage nf fb x k s).congr_after hstays, ?_⟩
    rw [hstays.2]
    exact hlater

section
variable {nf fb x y : F32} {s t : State} {p : Poles}

/-- The input of active stage `k` is `BUF1` of stage `k - 1`, or the filter's input. -/
theorem Cascaded.stageRule (h : Cascaded nf fb s t (stagesOf p) x y) {k : Fin 3} (hk : k.val < p.count) :
    StageRule nf fb (if _ : k.val = 0 then x else t.buf1[k.val - 1]) s t k := by
  cases p with
  | one =>
    obtain ⟨h0, _⟩ := h
    match k with
    | 0 => exact h0
  | two =>
    obtain ⟨h0, h1, _⟩ := h
    match k with
    | 0 => exact h0
    | 1 => exact h1
  | three =>
    obtain ⟨h0, h1, h2, _⟩ := h
    match k with
    | 0 => exact h0
    | 1 => exact h1
    | 2 => exact h2

theorem Cascaded.output (h : Cascaded nf fb s t (stagesOf p) x y) {k : Fin 3} (hk : k.val + 1 = p.count) :
    y = t.buf1[k] := by
  cases p with
  | one =>
    obtain rfl : k = 0 := Fin.ext (Nat.succ.inj hk)
    exact h.2
  | two =>
    obtain rfl : k = 1 := Fin.ext (Nat.succ.inj hk)
    exact h.2.2
  | three =>
    obtain rfl : k = 2 := Fin.ext (Nat.succ.inj hk)
    exact h.2.2.2

end

/-! ### Two runs that agree on the active stages -/

/-- Two states with the same next draw and the same integrators in the active stages. -/
structure AgreeOn (active : Fin 3 → Prop) (s u : State) : Prop where
  draws : u.draws = s.draws
  bufs : ∀ k, active k → u.buf0[k] = s.buf0[k] ∧ u.buf1[k] = s.buf1[k]

section
variable {active : Fin 3 → Prop} {s u : State}

theorem AgreeOn.afterStage (h : AgreeOn active s u) {k : Fin 3} (hk : active k) (nf fb x : F32) :
    AgreeOn active (afterStage nf fb x k s) (afterStage nf fb x k u) := by
  obtain ⟨hk0, hk1⟩ := h.bufs k hk
  have hstage : stage nf fb x u.buf0[k] u.buf1[k] u.draws = stage nf fb x s.buf0[k] s.buf1[k] s.draws := by
    rw [hk0, hk1, h.draws]
  refine ⟨congrArg StageOut.draws hstage, fun j hj => ?_⟩
  obtain ⟨hj0, hj1⟩ := h.bufs j hj
  obtain ⟨hs0, hs1⟩ := afterStage_get nf fb x k j s
  obtain ⟨hu0, hu1⟩ := afterStage_get nf fb x k j u
  rw [hs0, hs1, hu0, hu1, hstage, hj0, hj1]
  exact ⟨rfl, rfl⟩

theorem AgreeOn.cascade (h : AgreeOn active s u) {ks : List (Fin 3)} (hks : ∀ k ∈ ks, active k)
    (nf fb x : F32) :
    (cascade nf fb ks x u).1 = (cascade nf fb ks x s).1 ∧
      AgreeOn active (cascade nf fb ks x s).2 (cascade nf fb ks x u).2 := by
  induction ks generalizing x s u with
  | nil => exact ⟨rfl, h⟩
  | cons k ks ih =>
    have hk : active k := hks k List.mem_cons_self
    have hnext := h.afterStage hk nf fb x
    rw [cascade_cons, cascade_cons, (hnext.bufs k hk).2]
    exact ih hnext (fun j hj => hks j (List.mem_cons_of_mem k hj)) _

end

/-! ### The filter tick -/

theorem filterTick_of_bypass {v2 : Option F32} {s : State} (h : (normFreq v2 s).lt s.cfg.nfBypass = false)
    (x : F32) : filterTick x v2 s = (x, s) := by
  rcases filterTick_cases x v2 s with ⟨_, e⟩ | ⟨h', _⟩
  · exact e
  · exact absurd (h'.symm.trans h) Bool.noConfusion

theorem filterTick_of_active {v2 : Option F32} {s : State} (h : (normFreq v2 s).lt s.cfg.nfBypass = true)
    (x : F32) : filterTick x v2 s =
      cascade (clampNf (normFreq v2 s)) (feedback s.fltQ (clampNf (normFreq v2 s))) (stagesOf s.fltPoles) x s := by
  rcases filterTick_cases x v2 s with ⟨h', _⟩ | ⟨_, e⟩
  · exact absurd (h'.symm.trans h) Bool.noConfusion
  · exact e

/-- Settles O50: the active stages are cascaded (`cascaded_cascade`), and the others are not in the list that the
cascade goes through. -/
theorem filterTickRule : Obligations.FilterTickRule := by
  intro x v2 s cut nf0
  have hnf : nf0 = normFreq v2 s := rfl
  rw [hnf]
  split
  case isTrue hbypass => exact filterTick_of_bypass hbypass x
  case isFalse hactive =>
    intro nf fb t
    have htick := filterTick_of_active ((Bool.not_eq_false _).mp hactive) x
    have hcascaded : Cascaded nf fb s t (stagesOf s.fltPoles) x (filterTick x v2 s).1 := by
      simp only [t, htick]
      exact cascaded_cascade (nodup_stagesOf s.fltPoles) x s
    refine ⟨fun k hk => ?_, fun k hk => ?_, fun k hk => hcascaded.output hk, filterTick_frame x v2 s⟩
    · obtain ⟨h0, h1⟩ := hcascaded.stageRule hk
      exact ⟨h0, h1⟩
    · simp only [t, htick]
      exact cascade_other _ _ _ k (fun hmem => Nat.not_lt.2 hk (mem_stagesOf.1 hmem)) x s

/-- Settles O51: neither run reads a stage that is not active (`AgreeOn.cascade`), and the two have one cutoff. -/
theorem inactiveStagesAreUnread : Obligations.InactiveStagesAreUnread := by
  intro x v2 s b0 b1 hb r q
  have hagree : AgreeOn (fun k => k.val < s.fltPoles.count) s { s with buf0 := b0, buf1 := b1 } := ⟨rfl, hb⟩
  have hfreq : normFreq v2 { s with buf0 := b0, buf1 := b1 } = normFreq v2 s := rfl
  cases hlt : (normFreq v2 s).lt s.cfg.nfBypass with
  | false =>
    have hr : r = (x, s) := filterTick_of_bypass hlt x
    have hq : q = (x, { s with buf0 := b0, buf1 := b1 }) := filterTick_of_bypass (hfreq ▸ hlt) x
    rw [hr, hq]
    exact ⟨rfl, hb⟩
  | true =>
    have hr := filterTick_of_active hlt x
    have hq := filterTick_of_active (s := { s with buf0 := b0, buf1 := b1 }) (hfreq ▸ hlt) x
    rw [hfreq] at hq
    obtain ⟨hout, hafter⟩ := hagree.cascade (fun _ => mem_stagesOf.1)
      (clampNf (normFreq v2 s)) (feedback s.fltQ (clampNf (normFreq v2 s))) x
    rw [← hr, ← hq] at hout hafter
    exact ⟨hout, hafter.bufs⟩

end Sys2Proof.Machine


/-! # LFO bank (43_lfo.md)

The proofs of the statements about 43_lfo.md. The phases after a consultation are a function of the LFO alone
(`Lfo.consulted`): a draw decides a value, never a phase. Every frame consults every LFO once, so it leaves each the
one after its consultation (`renderFrame_lfos`). -/

namespace Sys2Proof.Machine

/-! ### Commands of the LFOs -/

theorem onLfo_of_legal {idx : BitVec 8} (h : idx.toNat < 8) (f : Lfo → Lfo) (s : State) :
    onLfo idx f s = { s with lfos := s.lfos.set idx.toNat (f s.lfos[idx.toNat]) } := by
  simp only [onLfo, lfoOf, dif_pos h]; rfl

/-- Settles O29: the index is legal and the payload, where it is an f32, finite, so the one LFO is written
(`onLfo_of_legal`). -/
theorem lfoRegisters : Obligations.LfoRegisters := by
  intro s idx rsv p hi put
  have write (f : Lfo → Lfo) : Host.Outcome.next (onLfo idx f s) =
      (.next (put (f s.lfos[idx.toNat])) : Host.Outcome State Fault Refusal) := by rw [onLfo_of_legal hi]
  refine ⟨decodeCommand_fields .., write _,
    ⟨decodeCommand_fields .., shapeOf (payC4 p), codeOf_shapeOf _, write _⟩, fun v hv => ?_⟩
  have writeFinite (f : Lfo → Lfo) : Host.Outcome.next (whenFinite v (onLfo idx f) s) =
      (.next (put (f s.lfos[idx.toNat])) : Host.Outcome State Fault Refusal) := by
    rw [whenFinite_of_finite hv, write]
  exact ⟨decodeCommand_fields .., writeFinite _, decodeCommand_fields .., writeFinite _,
    decodeCommand_fields .., writeFinite _⟩

/-! ### One consultation -/

theorem needed_iff {i : Fin 8} {s : State} :
    needed i s = true ↔ s.lfos[i].en = true ∧ (i.val < 4 ∨ s.lfos[i].width.feq F32.zero = false) := by
  simp [needed]

/-- Settles O48, by the two cases of a consultation (`consult_cases`). -/
theorem consultationRule : Obligations.ConsultationRule := by
  intro i s l
  rcases consult_cases i s with ⟨hn, h⟩ | ⟨hn, o, v, ho, hv, h⟩
  · rw [if_neg fun hneeded => Bool.eq_false_iff.1 hn (needed_iff.2 hneeded)]
    exact h
  · rw [if_pos (needed_iff.1 hn)]
    subst ho hv
    exact ⟨_, _, storedAs_drawNaN _ _, h⟩

/-- Only the value of a wave and the index of the next draw depend on the draws, Noise included
(40_oscillator.md R158). -/
theorem wave_ph_draws (c : Config) (sh : Shape) (ph : Vector F32 7) (f : F32) (m : Option F32) (p0 p1 : F32)
    (n k : Nat) : (wave c sh ph f m p0 p1 n).ph = (wave c sh ph f m p0 p1 k).ph := by
  cases sh <;> rfl

/-- LFO `i` after its consultation, from the LFO before (43_lfo.md R280, R281); the index decides its kind only. -/
def Lfo.consulted (c : Config) (i : Fin 8) (l : Lfo) : Lfo :=
  if l.en = true ∧ (i.val < 4 ∨ l.width.feq F32.zero = false) then
    { l with ph := (wave c l.shape l.ph l.freq none lfoP0 lfoP1 0).ph }
  else l

theorem Lfo.consulted_congr {i j : Fin 8} (h : i.val < 4 ↔ j.val < 4) (c : Config) (l : Lfo) :
    l.consulted c i = l.consulted c j := by
  simp only [Lfo.consulted, h]

theorem consult_lfos (i j : Fin 8) (s : State) :
    (consult i s).2.lfos[j] = if i = j then s.lfos[i].consulted s.cfg i else s.lfos[j] := by
  rcases consult_cases i s with ⟨hn, h⟩ | ⟨hn, o, v, ho, _, h⟩ <;> rw [h]
  · have hstands : s.lfos[i].consulted s.cfg i = s.lfos[i] :=
      if_neg fun hneeded => Bool.eq_false_iff.1 hn (needed_iff.2 hneeded)
    split
    case isTrue hij => rw [hstands, hij]
    case isFalse => rfl
  · have hmoves : s.lfos[i].consulted s.cfg i = { s.lfos[i] with ph := o.ph } := by
      rw [ho, wave_ph_draws (k := 0)]
      exact if_pos (needed_iff.1 hn)
    rw [hmoves]
    exact setLfo_get s i j _

/-! ### The consultations of a frame -/

/-- From `s` to `t` each LFO of the list was consulted once and no other was. -/
structure ConsultedOnce (s : State) (done : List (Fin 8)) (t : State) : Prop where
  cfg : t.cfg = s.cfg
  lfos : ∀ j : Fin 8, t.lfos[j] = if j ∈ done then s.lfos[j].consulted s.cfg j else s.lfos[j]

section
variable {s t u : State} {done : List (Fin 8)}

/-- A unit that writes no LFO does not count. -/
theorem ConsultedOnce.of_lfos_eq (h : ConsultedOnce s done t) (hu : u.cfg = t.cfg ∧ u.lfos = t.lfos) :
    ConsultedOnce s done u := by
  obtain ⟨hcfg, hlfos⟩ := hu
  exact ⟨hcfg.trans h.cfg, fun j => by rw [hlfos]; exact h.lfos j⟩

theorem ConsultedOnce.consult (h : ConsultedOnce s done t) {i : Fin 8} (hi : i ∉ done) :
    ConsultedOnce s (i :: done) (consult i t).2 := by
  constructor
  · obtain ⟨_, _, e⟩ := consult_frame i t
    rw [e]
    exact h.cfg
  · intro j
    rw [consult_lfos, h.cfg, h.lfos, h.lfos, if_neg hi]
    by_cases hij : i = j
    · subst hij; simp
    · simp [hij, Ne.symm hij]

theorem ConsultedOnce.noteSideband (h : ConsultedOnce s done t) (e : BitVec 2) (n : BitVec 8) :
    ConsultedOnce s done (noteSideband e n t) := by
  obtain ⟨_, _, hnote⟩ := noteSideband_frame e n t
  exact h.of_lfos_eq (by rw [hnote]; exact ⟨rfl, rfl⟩)

theorem ConsultedOnce.slotTicks (h : ConsultedOnce s done t) (m : Vector (Option F32) 4) :
    ConsultedOnce s done (slotTicks m t).2 := by
  obtain ⟨_, _, hslots⟩ := slotTicks_frame m t
  exact h.of_lfos_eq (by rw [hslots]; exact ⟨rfl, rfl⟩)

theorem ConsultedOnce.mixer (h : ConsultedOnce s done t) (y : Vector F32 4) :
    ConsultedOnce s done (mixer y t).2 := h.of_lfos_eq ⟨rfl, rfl⟩

theorem ConsultedOnce.filterTick (h : ConsultedOnce s done t) (x : F32) (v2 : Option F32) :
    ConsultedOnce s done (filterTick x v2 t).2 := by
  obtain ⟨_, _, _, hflt⟩ := filterTick_frame x v2 t
  exact h.of_lfos_eq (by rw [hflt]; exact ⟨rfl, rfl⟩)

theorem ConsultedOnce.ampTick (h : ConsultedOnce s done t) : ConsultedOnce s done (ampTick t).2 := by
  obtain ⟨_, _, _, _, _, _, _, _, hamp⟩ := ampTick_frame t
  exact h.of_lfos_eq (by rw [hamp]; exact ⟨rfl, rfl⟩)

end

/-- The order in which a frame consults the LFOs, the last one first (44_render_system.md R310). -/
theorem consultedOnce_beforeAmp (e : BitVec 2) (n : BitVec 8) (s : State) :
    ConsultedOnce s [3, 1, 0, 2, 7, 6, 5, 4] (beforeAmp e n s) := by
  have hstart : ConsultedOnce s [] (noteSideband e n s) :=
    ConsultedOnce.noteSideband ⟨rfl, fun _ => rfl⟩ e n
  have hmods : ConsultedOnce s [7, 6, 5, 4] (consultMods (noteSideband e n s)).2 :=
    (((hstart.consult (by decide)).consult (by decide)).consult (by decide)).consult (by decide)
  have hfilter (m y x v2) : ConsultedOnce s [2, 7, 6, 5, 4]
      (filterTick x v2 (consult 2 (mixer y (slotTicks m (consultMods (noteSideband e n s)).2).2).2).2).2 :=
    (((hmods.slotTicks m).mixer y).consult (by decide)).filterTick x v2
  exact (((hfilter _ _ _ _).consult (by decide)).consult (by decide)).consult (by decide)

/-- A frame consults every LFO (43_lfo.md R280). -/
theorem renderFrame_lfos (e : BitVec 2) (n : BitVec 8) (s : State) (i : Fin 8) :
    (renderFrame e n s).lfos[i] = s.lfos[i].consulted s.cfg i := by
  obtain ⟨r, hr⟩ := renderFrame_eq e n s
  have hall : i ∈ ([3, 1, 0, 2, 7, 6, 5, 4] : List (Fin 8)) := by revert i; decide
  rw [hr, emit_lfos, (consultedOnce_beforeAmp e n s).ampTick.lfos, if_pos hall]

/-- Settles O49: the LFO after a frame is a function of the LFO before and its kind (`renderFrame_lfos`); a refused
`TICK` changes neither. -/
theorem equalLfosStayEqual : Obligations.EqualLfosStayEqual := by
  intro s t e n i j hkind heq ht
  obtain ⟨_, rfl⟩ | ⟨_, rfl⟩ := exec_tick_cases ht
  · exact heq
  · rw [renderFrame_lfos, renderFrame_lfos, heq, Lfo.consulted_congr hkind]

end Sys2Proof.Machine


/-! # Render system (44_render_system.md)

The proofs of the statements about 44_render_system.md. A frame reads neither the queue nor the moves to come
(`renderFrame_frontFree`), so a row of `TICK`s leads to the same state whatever follows it
(`exists_after_ticks`): a `BUF_END` and a `BUF_START`, or the next `TICK`. -/

namespace Sys2Proof.Machine

/-! ### The events -/

theorem exec_bufStart (s : State) :
    exec .bufStart s = .next (if s.inBuffer = false then { s with inBuffer := true } else s) := by
  cases h : s.inBuffer <;> simp [exec, execBufStart, h]

theorem exec_bufEnd (s : State) :
    exec .bufEnd s = .next (if s.inBuffer = true then { s with inBuffer := false } else s) := rfl

theorem exec_tick_of_gap {s : State} (h : s.inBuffer = false) (e : BitVec 2) (n : BitVec 8) :
    exec (.tick e n) s = .next s := by simp [exec, execTick, h]

theorem step_tick {s : State} {e : EventCode} {rest : List Turn} (hbuf : s.inBuffer = true)
    (hag : s.agenda = .event e :: rest) (he : evtField e = 2) :
    step s = .next (renderFrame (noteEvField e) (noteNumField e) { s with agenda := rest }) := by
  rw [step_event hag (decodeEvent_of_tick he), exec_tick_of_inBuffer (s := { s with agenda := rest }) hbuf]

theorem step_bufEnd {s : State} {e : EventCode} {rest : List Turn} (hbuf : s.inBuffer = true)
    (hag : s.agenda = .event e :: rest) (he : evtField e = 3) :
    step s = .next { s with agenda := rest, inBuffer := false } := by
  rw [step_event hag (decodeEvent_of_bufEnd he), exec_bufEnd, if_pos hbuf]

theorem step_bufStart {s : State} {e : EventCode} {rest : List Turn} (hgap : s.inBuffer = false)
    (hag : s.agenda = .event e :: rest) (he : evtField e = 1) :
    step s = .next { s with agenda := rest, inBuffer := true } := by
  rw [step_event hag (decodeEvent_of_bufStart he), exec_bufStart, if_pos hgap]

theorem evtField_of_decodeEvent_tick {e : EventCode} {ev : BitVec 2} {n : BitVec 8}
    (h : decodeEvent e = some (.tick ev n)) : evtField e = 2 := by
  unfold decodeEvent at h
  split at h
  case h_2 h2 => exact BitVec.eq_of_toNat_eq h2
  all_goals simp at h

/-! ### What answers a record -/

theorem renderFrame_out (e : BitVec 2) (n : BitVec 8) (s : State) :
    (renderFrame e n s).inBuffer = s.inBuffer ∧ ∃ r, (renderFrame e n s).out = s.out ++ [r] := by
  obtain ⟨_, _, _, _, _, _, _, _, _, _, _, _, _, _, r, h⟩ := renderFrame_frame e n s
  rw [h]
  exact ⟨rfl, r, rfl⟩

theorem acceptOp_out (s : State) : (acceptOp s).out = s.out := by
  rcases acceptOp_cases s with ⟨_, h⟩ | ⟨_, h⟩ | ⟨_, _, _, _, h⟩ <;> rw [h]

/-- An instruction answers nothing, but for an accepted `TICK`, which answers one record (44_render_system.md
R305, R311). -/
theorem exec_out {i : Instr} {s t : State} (h : exec i s = .next t) :
    t.out = s.out ∨ s.inBuffer = true ∧ (∃ e n, i = .tick e n) ∧ ∃ r, t.out = s.out ++ [r] := by
  cases hi : i.isCommand
  case true => exact .inl (exec_commandFrame hi h).out
  case false =>
    obtain rfl | rfl | ⟨e, n, rfl⟩ := event_of_not_command hi
    · rw [exec_bufStart] at h
      cases h
      split <;> exact .inl rfl
    · rw [exec_bufEnd] at h
      cases h
      split <;> exact .inl rfl
    · obtain ⟨_, rfl⟩ | ⟨hbuf, rfl⟩ := exec_tick_cases h
      · exact .inl rfl
      · exact .inr ⟨hbuf, ⟨e, n, rfl⟩, (renderFrame_out e n s).2⟩

/-! ### A frame does not see what waits at the ports -/

/-- The unit `f` of a frame neither reads nor writes the queue and the moves to come, and its answer does not
depend on them. -/
def UnitFrontFree {α : Type} (f : State → α × State) : Prop :=
  ∀ (s : State) (q : List CommandWord) (moves : List Turn),
    f (s.withFront q moves) = ((f s).1, (f s).2.withFront q moves)

theorem noteSideband_frontFree (e : BitVec 2) (n : BitVec 8) : FrontFree (noteSideband e n) := by
  intro s q moves
  unfold noteSideband
  split
  · rfl
  · exact noteOffOp_frontFree n s q moves
  · rfl

theorem consult_frontFree (i : Fin 8) : UnitFrontFree (consult i) := by
  intro s q moves
  have hneeded : needed i (s.withFront q moves) = needed i s := rfl
  unfold consult
  rw [hneeded]
  split <;> rfl

theorem consultMods_frontFree : UnitFrontFree consultMods := by
  intro s q moves
  simp only [consultMods, consult_frontFree _ _ q moves]

theorem slotTick_frontFree (i : Fin 4) (m : Option F32) : UnitFrontFree (slotTick i m) := by
  intro s q moves
  have hslots : (s.withFront q moves).slots = s.slots := rfl
  have hfreq : unison i (noteFreq i (s.withFront q moves)) (s.withFront q moves) =
      unison i (noteFreq i s) s := rfl
  unfold slotTick
  rw [hslots, hfreq]
  dsimp only
  split <;> rfl

theorem slotTicks_frontFree (m : Vector (Option F32) 4) : UnitFrontFree (slotTicks m) := by
  intro s q moves
  simp only [slotTicks, slotTick_frontFree _ _ _ q moves]

theorem mixer_frontFree (y : Vector F32 4) : UnitFrontFree (mixer y) := fun _ _ _ => rfl

theorem cascade_frontFree (nf fb : F32) (ks : List (Fin 3)) : ∀ x, UnitFrontFree (cascade nf fb ks x) := by
  induction ks with
  | nil => exact fun _ _ _ _ => rfl
  | cons k ks ih =>
    intro x s q moves
    rw [cascade_cons, cascade_cons]
    exact ih _ (afterStage nf fb x k s) q moves

theorem filterTick_frontFree (x : F32) (v2 : Option F32) : UnitFrontFree (filterTick x v2) := by
  intro s q moves
  cases h : (normFreq v2 s).lt s.cfg.nfBypass with
  | false => rw [filterTick_of_bypass h, filterTick_of_bypass (s := s.withFront q moves) h]
  | true =>
    rw [filterTick_of_active h, filterTick_of_active (s := s.withFront q moves) h]
    exact cascade_frontFree _ _ _ _ s q moves

/-- The front end is among what the amplitude tick does not see (`ampTick_among`). -/
theorem ampTick_frontFree : UnitFrontFree ampTick := by
  intro s q moves
  have hamong : ampTick (s.withFront q moves) = ((ampTick s).1, (ampTick s).2.among (s.withFront q moves)) :=
    ampTick_among s (s.withFront q moves)
  obtain ⟨_, _, _, _, _, _, _, _, h⟩ := ampTick_frame s
  rw [hamong, h]
  rfl

theorem renderFrame_frontFree (e : BitVec 2) (n : BitVec 8) : FrontFree (renderFrame e n) := by
  intro s q moves
  simp only [renderFrame, noteSideband_frontFree _ _ _ q moves, consultMods_frontFree _ q moves,
    slotTicks_frontFree _ _ q moves, mixer_frontFree _ _ q moves, consult_frontFree _ _ q moves,
    filterTick_frontFree _ _ _ q moves, ampTick_frontFree _ q moves]
  rfl

/-! ### A row of ticks -/

theorem step_tick_withFront {s : State} {e : EventCode} (hbuf : s.inBuffer = true) (he : evtField e = 2)
    (q : List CommandWord) (moves : List Turn) :
    step (s.withFront q (.event e :: moves)) =
      .next ((renderFrame (noteEvField e) (noteNumField e) s).withFront q moves) := by
  rw [step_tick (s := s.withFront q _) hbuf rfl he, ← renderFrame_frontFree]
  rfl

/-- A row of `TICK`s leads to the same state, still in the buffer, whatever waits behind it
(44_render_system.md R304). -/
theorem exists_after_ticks (ts : List EventCode) : ∀ s : State, s.inBuffer = true →
    (∀ e ∈ ts, evtField e = 2) →
      ∃ u : State, u.inBuffer = true ∧ ∀ (q : List CommandWord) (moves : List Turn) (n : Nat),
        run (ts.length + n) (s.withFront q (ts.map .event ++ moves)) = run n (u.withFront q moves) := by
  induction ts with
  | nil => exact fun s hbuf _ => ⟨s, hbuf, fun _ _ n => by rw [List.length_nil, Nat.zero_add]; rfl⟩
  | cons e ts ih =>
    intro s hbuf hts
    obtain ⟨he, hts⟩ := List.forall_mem_cons.1 hts
    obtain ⟨hframe, _⟩ := renderFrame_out (noteEvField e) (noteNumField e) s
    obtain ⟨u, hu, hrun⟩ := ih (renderFrame (noteEvField e) (noteNumField e) s) (hframe.trans hbuf) hts
    refine ⟨u, hu, fun q moves n => ?_⟩
    rw [List.length_cons, Nat.succ_add, run, List.map_cons, List.cons_append, step_tick_withFront hbuf he]
    exact hrun q moves n

/-- A buffer that ends and starts again, with nothing between, uses up the two moves
(44_render_system.md R303, R306). -/
theorem run_bufEnd_bufStart {s : State} {stop start : EventCode} (hbuf : s.inBuffer = true)
    (hstop : evtField stop = 3) (hstart : evtField start = 1) (q : List CommandWord) (moves : List Turn)
    (n : Nat) :
    run (n + 2) (s.withFront q (.event stop :: .event start :: moves)) = run n (s.withFront q moves) := by
  have hend : step (s.withFront q (.event stop :: .event start :: moves)) =
      .next { s.withFront q (.event start :: moves) with inBuffer := false } := step_bufEnd hbuf rfl hstop
  have hagain : step { s.withFront q (.event start :: moves) with inBuffer := false } =
      .next (s.withFront q moves) := by
    rw [step_bufStart rfl rfl hstart, State.withFront, State.withFront, hbuf]
  rw [run, hend]
  dsimp only
  rw [run, hagain]

/-! ### The statements -/

/-- Settles O13: both runs pass through the state after the first row of `TICK`s (`exists_after_ticks`), and the
cut leads back to it (`run_bufEnd_bufStart`). -/
theorem bufferSizesAreInvisible : Obligations.BufferSizesAreInvisible := by
  intro s ts us stop start rest hbuf hticks hstop hstart hag
  obtain ⟨u, hu, hafter⟩ := exists_after_ticks ts s hbuf fun e he => hticks e (List.mem_append_left us he)
  have hmoves : s.agenda = ts.map .event ++ .event stop :: .event start :: (us.map .event ++ rest) := by
    simpa using hag
  calc run (ts.length + us.length + 2) s
    _ = run (ts.length + (us.length + 2)) (s.withFront s.cmdq
          (ts.map .event ++ .event stop :: .event start :: (us.map .event ++ rest))) := by
      rw [← hmoves, Nat.add_assoc]
      rfl
    _ = run (us.length + 2) (u.withFront s.cmdq
          (.event stop :: .event start :: (us.map .event ++ rest))) := hafter ..
    _ = run us.length (u.withFront s.cmdq (us.map .event ++ rest)) := run_bufEnd_bufStart hu hstop hstart ..
    _ = run (ts.length + us.length) (s.withFront s.cmdq (ts.map .event ++ (us.map .event ++ rest))) :=
      (hafter ..).symm
    _ = run (ts.length + us.length) { s with agenda := (ts ++ us).map .event ++ rest } := by
      rw [List.map_append, List.append_assoc]
      rfl

/-- Settles O20, by the move of the step: of the instructions it can bring, a `TICK` in a buffer alone answers
(`exec_out`). -/
theorem onlyTickAnswers : Obligations.OnlyTickAnswers := by
  refine ⟨fun s t h => ?_, fun s e rest hbuf hag he => ?_⟩
  · rcases step_cases s with ⟨_, e⟩ | ⟨_, rest, hag, ⟨_, e⟩ | ⟨_, e⟩ | ⟨_, _, e⟩ | ⟨_, _, w, _, _, e⟩ |
      ⟨_, _, _, e⟩ | ⟨c, i, rfl, hi, e⟩⟩ <;> rw [e] at h
    · cases h; exact .inl rfl
    · cases h; exact .inl (acceptOp_out _)
    · cases h; exact .inl rfl
    · cases h; exact .inl rfl
    · exact .inl (exec_commandFrame (isCommand_decodeCommand w) h).out
    · cases h; exact .inl rfl
    · refine (exec_out h).imp_right fun ⟨hbuf, ⟨ev, n, htick⟩, r, hout⟩ => ?_
      exact ⟨c, rest, r, hbuf, hag, evtField_of_decodeEvent_tick (htick ▸ hi), hout⟩
  · obtain ⟨hin, r, hout⟩ := renderFrame_out (noteEvField e) (noteNumField e) { s with agenda := rest }
    exact ⟨_, r, step_tick hbuf hag he, hout, hin.trans hbuf⟩

/-- Settles O14: the two marks by their equations, and a `TICK` in a gap is refused. -/
theorem systemInstructions : Obligations.SystemInstructions := fun s =>
  ⟨rfl, exec_bufStart s, exec_bufEnd s, fun e n hgap => exec_tick_of_gap hgap e n⟩

end Sys2Proof.Machine
